-- ==== Sys2Proof/Word.lean ====
section
/-! DEFINITION. The value types of the block: bit sequences (R10), clock readings (R14), bytes and event words (R110). -/

namespace Sys2Proof

/-- A bit sequence (R10): index 0 is the bit captured first. One value stands for a register and its
length register together, as R15 writes the pair (`buf`, `len`). -/
abbrev BitSeq := List Bool

/-- A 32-bit reading of one of the two clocks, or a stored time (R7: `TS_US_W = TS_MS_W = 32`). -/
abbrev Word32 := BitVec 32

/-- A command code, a group or a checksum sum (R38, R39, R215). -/
abbrev Byte := BitVec 8

/-- An event word `ev[71:0]` (R110). -/
abbrev EventWord := BitVec 72

end Sys2Proof
end

