-- ==== Sys2Proof/Config.lean ====
section
/-! DEFINITION. What an implementation fixes: the OPEN parameters of R7, and the values the informative decoders leave open. -/

namespace Sys2Proof

/-- A set of build parameters as written down, not yet checked against the constraints of R7. -/
structure Params where
  /-- `MAX_BITS`: capacity of every buffer and (R7, `WORD_BITS = MAX_BITS`) of every Word. -/
  maxBits : Nat
  /-- `WBI_US`: the word-boundary interval in microseconds. -/
  wbiUs : Nat
  /-- `GUARD_US`: the guard in microseconds. -/
  guardUs : Nat
  /-- `SYNC_STAGES`: synchroniser flip-flops of the pin-level layer (R118). -/
  syncStages : Nat
deriving DecidableEq, Repr

/-- The build parameters of one block: the four OPEN parameters of R7 with the constraints R7 puts on
them. An illegal set is no configuration of the block (U12), so it cannot be built.
The field defaults are the spec's test configuration TC (D38) and no value of the hardware (log 1). -/
structure Config where
  maxBits : Nat := 64
  wbiUs : Nat := 10000
  guardUs : Nat := 1000
  syncStages : Nat := 0
  maxBits_ge : 8 ≤ maxBits := by decide
  guard_le : guardUs ≤ wbiUs := by decide
  sum_lt : wbiUs + guardUs < 2 ^ 32 := by decide
deriving DecidableEq, Repr, Inhabited

/-- The parameters the block was built with. OPEN (R7): no proof can learn them (log 1). -/
opaque Config.build : Config

/-- The spec's test configuration TC of 95_test_vectors.md (D38). -/
def Config.tc : Config := {}

/-- The parameter set of a configuration. -/
def Config.params (c : Config) : Params := ⟨c.maxBits, c.wbiUs, c.guardUs, c.syncStages⟩

/-- Downstream only (U8): the armed boolean of command `0xa5` when the arm-state field is 1, which the
document does not give. Free (log 10). -/
opaque Config.armedWhenOne : Bool

/-- Downstream only (R255, N11): the code that command `0xa5` emits, from the arm-state field and the raw
6-bit code. The document's arithmetic is not settled. Free (log 10). -/
opaque Config.emittedCode : BitVec 2 → BitVec 6 → Nat

end Sys2Proof
end

