-- ==== Sys2Proof/Syntax.lean ====
section
/-! DEFINITION. The operations of the block (R100, one constructor per row of the opcode table), the fields of an event word (R110) and the abstract syntax of traces (R113, R115). -/

namespace Sys2Proof

/-- The seven operations (R100, R111) with the operands each uses. -/
inductive Instr where
  /-- NOP: nothing happens (R241). -/
  | nop
  /-- EDGE.R, `RISE d @t_us` (R136). -/
  | edgeR (d : Bool) (tUs : Word32)
  /-- EDGE.F, `FALL d @t_us` (R137). -/
  | edgeF (d : Bool) (tUs : Word32)
  /-- POLL, `POLL @t_us,t_ms` (R160). -/
  | poll (tUs tMs : Word32)
  /-- CKSUM.P (R216). -/
  | cksumP
  /-- CKSUM.K (R217). -/
  | cksumK
  /-- RESET (R240). -/
  | reset
deriving DecidableEq, Repr

/-- The five fields of an event word (R110). -/
structure EventFields where
  op : BitVec 3
  d : Bool
  z : BitVec 4
  tMs : Word32
  tUs : Word32
deriving DecidableEq, Repr

/-- Why an event word spells no operation (R114). -/
inductive EventError where
  /-- `op = 0b110`. -/
  | reservedOp
  /-- `z != 0`. -/
  | zNotZero
  /-- `d = 1` on an operation other than EDGE.R and EDGE.F. -/
  | dNotUsed
deriving DecidableEq, Repr

/-- One line of a trace: an event (R113) or a pseudo-event (R115). Times are the written numbers. -/
inductive TraceLine where
  | rise (d : Bool) (t : Nat)
  | fall (d : Bool) (t : Nat)
  | poll (t m : Nat)
  | cksumP
  | cksumK
  | reset
  | nop
  /-- `PAIR k p @T`. -/
  | pair (k p : Bool) (t : Nat)
  /-- `WORD P K @T`. -/
  | word (p k : BitSeq) (t : Nat)
deriving DecidableEq, Repr

end Sys2Proof
end

