-- ==== Sys2Proof/WellFormed.lean ====
section
/-! DEFINITION. The checks of R7 (parameter sets), R110 and R114 (event words and instructions) and R113, R115 (trace lines). -/

namespace Sys2Proof

/-- `MAX_BITS >= 8` (R7). -/
def Params.capacityOk (p : Params) : Bool := decide (8 ≤ p.maxBits)

/-- `GUARD_US <= WBI_US` (R7). -/
def Params.guardOk (p : Params) : Bool := decide (p.guardUs ≤ p.wbiUs)

/-- `WBI_US + GUARD_US < 2^32` (R7). -/
def Params.sumOk (p : Params) : Bool := decide (p.wbiUs + p.guardUs < 2 ^ 32)

/-- A parameter set is a configuration of the block (R7, U12). -/
def Params.legal (p : Params) : Bool := p.capacityOk && p.guardOk && p.sumOk

/-- The configuration of a legal parameter set; an illegal one is refused (U12, R304). -/
def Config.ofParams (p : Params) : Option Config :=
  if h : 8 ≤ p.maxBits ∧ p.guardUs ≤ p.wbiUs ∧ p.wbiUs + p.guardUs < 2 ^ 32 then
    some ⟨p.maxBits, p.wbiUs, p.guardUs, p.syncStages, h.1, h.2.1, h.2.2⟩
  else none

/-- R7: `MAX_BITS >= 49` when the informative decoders are attached. -/
def Config.fitsDecoders (c : Config) : Bool := decide (49 ≤ c.maxBits)

/-- `op` selects an operation: every code but `0b110` (R111, R114). -/
def EventFields.opOk (f : EventFields) : Bool := f.op != 0b110#3

/-- `z` must be `0b0000` (R110). -/
def EventFields.zOk (f : EventFields) : Bool := f.z == 0#4

/-- `d` must be 0 but on EDGE.R and EDGE.F (R110). -/
def EventFields.dOk (f : EventFields) : Bool := !f.d || f.op == 0b001#3 || f.op == 0b010#3

/-- The fields spell an operation (R110, R114). -/
def EventFields.wf (f : EventFields) : Bool := f.opOk && f.zOk && f.dOk

/-- The fields of an operation's event word; unused fields are written as 0 (R111, R113). -/
def Instr.fields : Instr → EventFields
  | .nop => ⟨0b000#3, false, 0#4, 0#32, 0#32⟩
  | .edgeR d tUs => ⟨0b001#3, d, 0#4, 0#32, tUs⟩
  | .edgeF d tUs => ⟨0b010#3, d, 0#4, 0#32, tUs⟩
  | .poll tUs tMs => ⟨0b011#3, false, 0#4, tMs, tUs⟩
  | .cksumP => ⟨0b100#3, false, 0#4, 0#32, 0#32⟩
  | .cksumK => ⟨0b101#3, false, 0#4, 0#32, 0#32⟩
  | .reset => ⟨0b111#3, false, 0#4, 0#32, 0#32⟩

/-- An operation is well formed when its event word's fields are. Its operands have the widths of R110
by their types, so no operand is out of range (R112). -/
def Instr.wf (i : Instr) : Bool := i.fields.wf

/-- A written time fits the 32-bit operand (R110). -/
def timeOk (t : Nat) : Bool := decide (t < 2 ^ 32)

/-- A trace line can be expanded: times fit, and the strings of a WORD have equal length (R113, R115). -/
def TraceLine.wf : TraceLine → Bool
  | .rise _ t => timeOk t
  | .fall _ t => timeOk t
  | .poll t m => timeOk t && timeOk m
  | .cksumP => true
  | .cksumK => true
  | .reset => true
  | .nop => true
  | .pair _ _ t => timeOk t
  | .word p k t => timeOk t && p.length == k.length

end Sys2Proof
end

