-- ==== Sys2Proof/Decode.lean ====
section
/-! DEFINITION. Event words to operations and back (R110, R111, R114). -/

namespace Sys2Proof

/-- The fields of an event word, by their bit ranges in the table of R110. -/
def EventFields.ofWord (w : EventWord) : EventFields where
  op := w.extractLsb' 69 3
  d := w.getLsbD 68
  z := w.extractLsb' 64 4
  tMs := w.extractLsb' 32 32
  tUs := w.extractLsb' 0 32

/-- The event word of five fields, most significant field first (R110). -/
def EventFields.toWord (f : EventFields) : EventWord :=
  f.op ++ BitVec.ofBool f.d ++ f.z ++ f.tMs ++ f.tUs

/-- The operation five fields spell, or why they spell none. R111 gives `op`; R114 the refused
headers; time fields an operation does not use are ignored (R110). -/
def EventFields.decode (f : EventFields) : Except EventError Instr :=
  if f.op = 0b110#3 then .error .reservedOp
  else if f.z ≠ 0#4 then .error .zNotZero
  else if f.op = 0b001#3 then .ok (.edgeR f.d f.tUs)
  else if f.op = 0b010#3 then .ok (.edgeF f.d f.tUs)
  else if f.d then .error .dNotUsed
  else if f.op = 0b000#3 then .ok .nop
  else if f.op = 0b011#3 then .ok (.poll f.tUs f.tMs)
  else if f.op = 0b100#3 then .ok .cksumP
  else if f.op = 0b101#3 then .ok .cksumK
  else .ok .reset

/-- The total decoder of event words (R114). -/
def decode (w : EventWord) : Except EventError Instr := (EventFields.ofWord w).decode

/-- The event word of an operation (R111, R113). -/
def encode (i : Instr) : EventWord := i.fields.toWord

/-- The bits of an event word that decide the operation and its operands: the header always, the time
fields where the operation uses them (the column "operands used" of R111). -/
def usedBits : Instr → EventWord
  | .nop => 0xFF0000000000000000#72
  | .edgeR _ _ => 0xFF00000000FFFFFFFF#72
  | .edgeF _ _ => 0xFF00000000FFFFFFFF#72
  | .poll _ _ => 0xFFFFFFFFFFFFFFFFFF#72
  | .cksumP => 0xFF0000000000000000#72
  | .cksumK => 0xFF0000000000000000#72
  | .reset => 0xFF0000000000000000#72

/-- The operation the decoder reads from an event word given as a number of `nbits` bits. An event word
is one 72-bit value and is never split into bytes (R73), so the table's numbering is the word's own. -/
def decodeTableWord (nbits w : Nat) : Option Instr :=
  match decode (BitVec.ofNat 72 (w % 2 ^ nbits)) with
  | .ok i => some i
  | .error _ => none

end Sys2Proof
end

