-- ==== Sys2Proof/Machine/State.lean ====
section
/-! DEFINITION. The state of the block (10_state.md R31 to R48), the inputs of the environment not yet consumed, the reasons a step can stop, and the state after reset (R62). -/

namespace Sys2Proof.Machine

/-- The levels on the input ports at one tick of `sys_clk` (R61, R118). -/
structure Pins where
  /-- The Keybus clock line, "line A". -/
  kbClk : Bool
  /-- The data-in line, "line B". -/
  kbData : Bool
  /-- The enable input (R53). -/
  sampEn : Bool
  /-- A request for one POLL. -/
  poll : Bool
  /-- A request for one checksum. -/
  ckReq : Bool
  /-- The role of the checksum request: 0 panel, 1 keypad. -/
  ckRole : Bool
  /-- The reset input. -/
  rst : Bool
  /-- The microsecond clock. -/
  tUs : Word32
  /-- The millisecond clock. -/
  tMs : Word32
deriving DecidableEq, Repr

/-- One stimulus of the environment: an event word of a trace (R110), or the pins at one tick of the
pin-level layer (R118). -/
inductive Input where
  | event (w : EventWord)
  | tick (p : Pins)
deriving DecidableEq, Repr

/-- Everything the block holds. A bit-sequence field stands for the register and its length register
(R15). -/
structure State where
  /-- The build parameters (R7); the model's own field, changed by nothing (R243). -/
  cfg : Config
  /-- `p_buf`, `p_len`: the panel BitBuffer (R31). -/
  pBuf : BitSeq
  /-- `k_buf`, `k_len`: the keypad BitBuffer (R32). -/
  kBuf : BitSeq
  /-- `last_edge_us` (R33). -/
  lastEdgeUs : Word32
  /-- `interval_us` (R34). -/
  intervalUs : Word32
  /-- `k_pend`, `k_pend_len`: the pending keypad Word (R35). -/
  kPend : BitSeq
  /-- `p_word`, `p_word_len` (R36). -/
  pWord : BitSeq
  /-- `k_word`, `k_word_len` (R37). -/
  kWord : BitSeq
  /-- `pcmd` (R38). -/
  pcmd : Byte
  /-- `kcmd` (R39). -/
  kcmd : Byte
  /-- `status` (R40). -/
  status : BitVec 2
  /-- `led`, true is ON (R41). -/
  led : Bool
  /-- `prev_p`, `prev_p_len` (R42). -/
  prevP : BitSeq
  /-- `prev_k`, `prev_k_len` (R43). -/
  prevK : BitSeq
  /-- `last_activity_ms` (R44). -/
  lastActivityMs : Word32
  /-- `last_status_ms` (R46). -/
  lastStatusMs : Word32
  /-- `ck_result` (R47). -/
  ckResult : BitVec 2
  /-- `clk_q` (R48), pin-level layer. -/
  clkQ : Bool
  /-- The synchroniser flip-flops of `kb_clk` (R118), the newest sample first. -/
  clkSync : List Bool
  /-- The synchroniser flip-flops of `kb_data` (R118), the newest sample first. -/
  dataSync : List Bool
  /-- The stimuli not yet consumed; the model's own field (log 2). -/
  inputs : List Input
deriving DecidableEq, Repr

/-- Faults: none. R280 and R303: the block raises no exception, never traps, never halts. -/
inductive Fault where
deriving DecidableEq, Repr

/-- Refusals, all at the boundary (R304). -/
inductive Refusal where
  /-- Raised by exec for an operation with no meaning yet; no arm raises it now. Safe: nothing can be
  proved of a run that ends in it. -/
  | notModelled (mnemonic : String)
  /-- Raised by step on an event word that spells no operation (R114, U10). Safe: in hardware the word
  cannot arise. -/
  | invalidEvent (e : EventError)
  /-- Raised by launch for a parameter set that breaks a constraint of R7 (R304, U12). Safe: it is no
  configuration of the block. -/
  | illegalParameters
deriving DecidableEq, Repr

/-- A register fits its capacity (R54, R64). -/
def fits (cap : Nat) (w : BitSeq) : Bool := decide (w.length ≤ cap)

/-- The form of the block's memory, its seven bit-sequence registers: none is longer than `MAX_BITS`
(R64). -/
def Memory.wf (s : State) : Bool :=
  fits s.cfg.maxBits s.pBuf && fits s.cfg.maxBits s.kBuf && fits s.cfg.maxBits s.kPend
    && fits s.cfg.maxBits s.pWord && fits s.cfg.maxBits s.kWord && fits s.cfg.maxBits s.prevP
    && fits s.cfg.maxBits s.prevK

/-- The state right after reset of a block built with `c`: the table of R62. The pin-level samples, for
which R62 gives no level, stand at the idle level of the lines (log 5). -/
def State.resetWith (c : Config) : State where
  cfg := c
  pBuf := []
  kBuf := []
  lastEdgeUs := 0
  intervalUs := 0
  kPend := []
  pWord := []
  kWord := []
  pcmd := 0
  kcmd := 0
  status := 0
  led := false
  prevP := []
  prevK := []
  lastActivityMs := 0
  lastStatusMs := 0
  ckResult := 0
  clkQ := true
  clkSync := List.replicate c.syncStages true
  dataSync := List.replicate c.syncStages true
  inputs := []

/-- The machine right after reset (R62, R310); it is also the launch state (R312, log 3). -/
def State.reset : State := State.resetWith Config.build

end Sys2Proof.Machine
end

