-- ==== Sys2Proof/Machine/Parameters.lean ====
section
/-! DEFINITION. The FIXED and CHOSEN parameters of R7 and the two derived thresholds of R8. -/

namespace Sys2Proof.Machine

/-- `MIN_PANEL_BITS` (R7, R164). -/
def minPanelBits : Nat := 8

/-- `LED_TIMEOUT_MS` (R7, R162). -/
def ledTimeoutMs : Word32 := 500#32

/-- `CK_MIN_BITS`: a Word is checked only when it is longer (R7, R211). -/
def ckMinBits : Nat := 8

/-- `P_START`: index of the first payload bit of a panel Word (R7, D23). -/
def panelStart : Nat := 9

/-- `K_START`: index of the first payload bit of a keypad Word (R7, D23). -/
def keypadStart : Nat := 8

/-- `CK_SUM_HEADER`: the command code is a summand of the checksum (R7, R214, log 7). -/
def ckSumHeader : Bool := true

/-- The command code whose acceptance stamps `last_status_ms` (R192). -/
def statusCommand : Byte := 0x05#8

/-- `TH_K = WBI_US - GUARD_US`, the keypad hand-off threshold (R8). -/
def thK (c : Config) : Word32 := BitVec.ofNat 32 (c.wbiUs - c.guardUs)

/-- `TH_P = WBI_US + GUARD_US`, the panel framing threshold (R8). -/
def thP (c : Config) : Word32 := BitVec.ofNat 32 (c.wbiUs + c.guardUs)

/-- `LEN_W = ceil(log2(MAX_BITS + 1))`, the width of every length register (R7): the number of binary
digits of `MAX_BITS`. -/
def lenW (c : Config) : Nat := Nat.log2 c.maxBits + 1

end Sys2Proof.Machine
end

