-- ==== Sys2Proof/Machine/Operands.lean ====
section
/-! DEFINITION. Operand forms: elapsed times (R14), reads of a bit sequence (R12, R13, R103), and the register images of R54. -/

namespace Sys2Proof.Machine

/-- `sub32(a, b)`: the elapsed time between two clock readings, modulo 2^32 (R14). -/
def sub32 (a b : Word32) : Word32 := a - b

/-- `bit(s, i)`: the bit at an index, 0 at or beyond the length (R12, R13 with `OOR_POLICY = zero_fill`). -/
def bitAt (w : BitSeq) (i : Nat) : Bool := w.getD i false

/-- `uint(s, off, n)`: `n` bits from index `off` as an unsigned integer, the first most significant
(R12). -/
def uint (w : BitSeq) (off : Nat) : Nat → Nat
  | 0 => 0
  | n + 1 => 2 * uint w off n + (bitAt w (off + n)).toNat

/-- The 8 bits from index `off` as a byte (R103). -/
def byteAt (w : BitSeq) (off : Nat) : Byte := BitVec.ofNat 8 (uint w off 8)

/-- `cmd(w)`, the command code: the first 8 bits (R103). -/
def command (w : BitSeq) : Byte := byteAt w 0

/-- Group `i` of a Word whose payload starts at `start` (R101, R102, R103). -/
def group (w : BitSeq) (start i : Nat) : Byte := byteAt w (start + 8 * i)

/-- The number of complete groups of a Word of length `len` (R213). -/
def groupCount (len start : Nat) : Nat := if start ≤ len then (len - start) / 8 else 0

/-- Some bit of the Word, at an index below its length, is 0 (R193). -/
def hasZero (w : BitSeq) : Bool := w.any (fun b => !b)

/-- The MSB-first expansion of a byte, `bits8(b)` (R221). -/
def bits8 (b : Byte) : BitSeq := (List.range 8).map fun j => b.getLsbD (7 - j)

/-- The stored bits of a register of capacity `cap`, bit `i` of the vector being index `i`: the bits at or
beyond the length are 0 (R54, R66). -/
def image (cap : Nat) (w : BitSeq) : BitVec cap := (BitVec.ofBoolListLE w).setWidth cap

/-- The value of a length register, `LEN_W` bits (R31). -/
def lengthReg (c : Config) (w : BitSeq) : BitVec (lenW c) := BitVec.ofNat (lenW c) w.length

end Sys2Proof.Machine
end

