-- ==== Sys2Proof/Machine/Flags.lean ====
section
/-! DEFINITION. The values that play the part of flags (R50): `status`, `led`, `ck_result`, and the framing condition. -/

namespace Sys2Proof.Machine

/-- `status = {kcmd != 0, pcmd != 0}` (R116, R168). -/
def statusOf (kcmd pcmd : Byte) : BitVec 2 := BitVec.ofBool (kcmd != 0) ++ BitVec.ofBool (pcmd != 0)

/-- The level of the indicator: OFF when more than 500 ms passed since the last acceptance (R162). -/
def ledLevel (tMs lastActivityMs : Word32) : Bool :=
  if ledTimeoutMs < sub32 tMs lastActivityMs then false else true

/-- The result of a checksum (R210). -/
inductive CkOutcome where
  | notChecked
  | invalid
  | valid
deriving DecidableEq, Repr

/-- `enc`: the encoding of `ck_result` (R117, R216). -/
def encodeCk (r : CkOutcome) : BitVec 2 :=
  match r with
  | .notChecked => 0b00#2
  | .invalid => 0b10#2
  | .valid => 0b11#2

/-- A boundary edge: its interval exceeds `TH_K`, strictly (R20, R131). With `GUARD_US = 0` the dead band of R20
is therefore empty, where R326 remarks that it is the value `WBI_US` (log 16). -/
def isBoundary (c : Config) (iv : Word32) : Bool := decide (thK c < iv)

/-- The framing condition of POLL (R164). -/
def framingReady (s : State) : Bool := decide (thP s.cfg < s.intervalUs) && decide (minPanelBits ≤ s.pBuf.length)

end Sys2Proof.Machine
end

