-- ==== Sys2Proof/Machine/Ops.lean ====
section
/-! DEFINITION. The operations over registers: `Append` and `Take` (R92, R93), the Sampler's steps (R131 to R134), the Framer's steps (R161 to R169) and the two acceptances (R190 to R197).

Taking the one interrupt of the block is an EDGE operation "and nothing more" (R291), there is no return
(R293) and no exception (R280); so there is no exception entry here. -/

namespace Sys2Proof.Machine

/-- `Append(buf, d)` into a buffer of capacity `cap` (R92, R135). -/
def append (cap : Nat) (w : BitSeq) (d : Bool) : BitSeq := if w.length < cap then w ++ [d] else w

/-- `Take(reg)`: the content, and the register left empty (R93). -/
def take (w : BitSeq) : BitSeq × BitSeq := (w, [])

/-- The keypad hand-off of a boundary edge (R131 step 2, R35). -/
def handOff (s : State) : State := { s with kPend := (take s.kBuf).1, kBuf := (take s.kBuf).2 }

/-- `EdgeTiming(now)` (R131). -/
def edgeTiming (now : Word32) (s : State) : State :=
  let iv := sub32 now s.lastEdgeUs
  let s := { s with intervalUs := iv }
  let s := if isBoundary s.cfg iv then handOff s else s
  { s with lastEdgeUs := now }

/-- `AppendPanel(d)` (R133). -/
def appendPanel (d : Bool) (s : State) : State := { s with pBuf := append s.cfg.maxBits s.pBuf d }

/-- `AppendKeypad(d)` (R134). -/
def appendKeypad (d : Bool) (s : State) : State := { s with kBuf := append s.cfg.maxBits s.kBuf d }

/-- Step 1 of POLL: the transient command codes become "none" (R161). -/
def clearCodes (s : State) : State := { s with pcmd := 0, kcmd := 0 }

/-- Step 2 of POLL: the presence signal (R162). -/
def driveLed (tMs : Word32) (s : State) : State := { s with led := ledLevel tMs s.lastActivityMs }

/-- Step 4a of POLL: snapshot and clear of the panel buffer (R165). -/
def takePanel (s : State) : State := { s with pWord := (take s.pBuf).1, pBuf := (take s.pBuf).2 }

/-- Step 4b of POLL: consumption of the pending keypad Word (R166). -/
def takeKeypad (s : State) : State := { s with kWord := (take s.kPend).1, kPend := (take s.kPend).2 }

/-- The effects of accepting panel Word `w` (R192). -/
def stampPanel (w : BitSeq) (tMs : Word32) (s : State) : State :=
  { s with
    lastActivityMs := tMs
    prevP := w
    lastStatusMs := if command w = statusCommand then tMs else s.lastStatusMs }

/-- `AcceptPanel(w, t_ms)`: the command code returned and the state after (R190, R191). -/
def acceptPanel (w : BitSeq) (tMs : Word32) (s : State) : Byte × State :=
  if command w = 0 then (0, s)
  else if w = s.prevP then (0, s)
  else (command w, stampPanel w tMs s)

/-- The effects of accepting keypad Word `w` (R193). -/
def stampKeypad (w : BitSeq) (tMs : Word32) (s : State) : State :=
  { s with lastActivityMs := tMs, prevK := w }

/-- `AcceptKeypad(w, t_ms)` (R193, R194). -/
def acceptKeypad (w : BitSeq) (tMs : Word32) (s : State) : Byte × State :=
  if hasZero w then (command w, stampKeypad w tMs s) else (0, s)

/-- The panel half of the dispatch: `pcmd <- AcceptPanel(p_word, t_ms)` (R160, R167). -/
def judgePanel (tMs : Word32) (s : State) : State :=
  let r := acceptPanel s.pWord tMs s
  { r.2 with pcmd := r.1 }

/-- The keypad half of the dispatch: `kcmd <- AcceptKeypad(k_word, t_ms)` (R160, R167). -/
def judgeKeypad (tMs : Word32) (s : State) : State :=
  let r := acceptKeypad s.kWord tMs s
  { r.2 with kcmd := r.1 }

/-- Step 6 of POLL (R168). -/
def writeStatus (s : State) : State := { s with status := statusOf s.kcmd s.pcmd }

/-- The no-word path: status 0 and nothing else (R169). -/
def noWord (s : State) : State := { s with status := 0 }

/-- `ck_result <- enc(r)` (R216, R217). -/
def writeCk (r : CkOutcome) (s : State) : State := { s with ckResult := encodeCk r }

/-- Every register to its reset value (R62, R240). `clk_q` and the synchronisers follow their lines and
are written by ticks alone (R48, R118); parameters and stimuli are no registers (R243, log 5). -/
def resetRegisters (s : State) : State :=
  { s with
    pBuf := [], kBuf := [], lastEdgeUs := 0, intervalUs := 0, kPend := [], pWord := [], kWord := []
    pcmd := 0, kcmd := 0, status := 0, led := false, prevP := [], prevK := []
    lastActivityMs := 0, lastStatusMs := 0, ckResult := 0 }

end Sys2Proof.Machine
end

