-- ==== Sys2Proof/Machine/Checksum.lean ====
section
/-! DEFINITION. The checksum validator, CKSUM.P and CKSUM.K (43_checksum.md), and the bit-serial form of R220. -/

namespace Sys2Proof.Machine

/-- The running sum `s0` plus groups `0 .. k-1`, modulo 256 (R210, R218). -/
def sumGroups (w : BitSeq) (start : Nat) (s0 : Byte) : Nat → Byte
  | 0 => s0
  | k + 1 => sumGroups w start s0 k + group w start k

/-- `Checksum(w, start)` with the header a summand or not (R210, R214). -/
def checksumWith (sumHeader : Bool) (w : BitSeq) (start : Nat) : CkOutcome :=
  if w.length ≤ ckMinBits then .notChecked
  else
    match groupCount w.length start with
    | 0 => .invalid
    | n + 1 =>
      let s := sumGroups w start (if sumHeader then command w else 0) n
      if s = group w start n then .valid else .invalid

/-- `Checksum(w, start)` (R210). -/
def checksum (w : BitSeq) (start : Nat) : CkOutcome := checksumWith ckSumHeader w start

/-- CKSUM.P: validate the panel Word (R216). -/
def execCksumP (s : State) : Host.Outcome State Fault Refusal := .next (writeCk (checksum s.pWord panelStart) s)

/-- CKSUM.K: validate the keypad Word (R217). -/
def execCksumK (s : State) : Host.Outcome State Fault Refusal := .next (writeCk (checksum s.kWord keypadStart) s)

/-- The registers of the bit-serial validator of R220 (informative): the bits still to skip after the
header, the shift register, its 3-bit counter, the accumulator (none until the header is loaded) and the
group held as "previous". -/
structure SerialCk where
  skip : Nat
  shift : Byte
  count : Nat
  acc : Option Byte
  held : Option Byte
deriving DecidableEq, Repr

/-- The serial validator before the first bit; `skip` is 1 for a panel Word and 0 for a keypad Word. -/
def serialInit (skip : Nat) : SerialCk := ⟨skip, 0, 0, none, none⟩

/-- One bit into the serial validator (R220): load the header, skip the framing bit, and at each
completed group add the previous one and hold the new one. -/
def serialBit (r : SerialCk) (b : Bool) : SerialCk :=
  let shift := (r.shift <<< 1) ||| BitVec.ofNat 8 b.toNat
  let full := r.count = 7
  match r.acc with
  | none => if full then { r with shift := 0, count := 0, acc := some shift } else { r with shift := shift, count := r.count + 1 }
  | some acc =>
    if r.skip ≠ 0 then { r with skip := r.skip - 1 }
    else if full then { r with shift := 0, count := 0, acc := some (acc + r.held.getD 0), held := some shift }
    else { r with shift := shift, count := r.count + 1 }

/-- The verdict after the last bit of a Word of length `len`. -/
def serialResult (len : Nat) (r : SerialCk) : CkOutcome :=
  if len ≤ ckMinBits then .notChecked
  else match r.held with
    | none => .invalid
    | some g => if r.acc = some g then .valid else .invalid

/-- The bit-serial validator of R220 over a whole Word. -/
def serialChecksum (w : BitSeq) (start : Nat) : CkOutcome :=
  serialResult w.length (w.foldl serialBit (serialInit (start - 8)))

end Sys2Proof.Machine
end

