-- ==== Sys2Proof/Machine/Framer.lean ====
section
/-! DEFINITION. The Framer's operation, POLL (41_framer.md, 42_acceptance.md). -/

namespace Sys2Proof.Machine

/-- Steps 4 to 6 of a POLL that frames: both Words taken, the panel judged, then the keypad, then the
status (R165 to R168, in the order of R163). -/
def frameWords (tMs : Word32) (s : State) : State :=
  writeStatus (judgeKeypad tMs (judgePanel tMs (takeKeypad (takePanel s))))

/-- The whole of POLL (R160). -/
def pollOnce (tMs : Word32) (s : State) : State :=
  let s := driveLed tMs (clearCodes s)
  if framingReady s then frameWords tMs s else noWord s

/-- POLL. Its `t_us` operand is recorded in the event and read by no rule (R160, R111). -/
def execPoll (_tUs tMs : Word32) (s : State) : Host.Outcome State Fault Refusal := .next (pollOnce tMs s)

end Sys2Proof.Machine
end

