-- ==== Sys2Proof/Machine/Sampler.lean ====
section
/-! DEFINITION. The Sampler's operations, EDGE.R and EDGE.F (40_sampler.md). -/

namespace Sys2Proof.Machine

/-- EDGE.R: a rising clock transition, a panel bit (R136). The hand-off precedes the append (R132). -/
def execEdgeR (d : Bool) (tUs : Word32) (s : State) : Host.Outcome State Fault Refusal :=
  .next (appendPanel d (edgeTiming tUs s))

/-- EDGE.F: a falling clock transition, a keypad bit (R137). -/
def execEdgeF (d : Bool) (tUs : Word32) (s : State) : Host.Outcome State Fault Refusal :=
  .next (appendKeypad d (edgeTiming tUs s))

end Sys2Proof.Machine
end

