-- ==== Sys2Proof/Machine/System.lean ====
section
/-! DEFINITION. The system operations RESET and NOP (44_system.md), and the launch of a block with given parameters (R304, R312). -/

namespace Sys2Proof.Machine

/-- RESET (R240). -/
def execReset (s : State) : Host.Outcome State Fault Refusal := .next (resetRegisters s)

/-- NOP (R241). -/
def execNop (s : State) : Host.Outcome State Fault Refusal := .next s

/-- The launch state of a block built with `p` (R312); a set that breaks R7 is refused (R304, U12). -/
def launch (p : Params) : Host.Outcome State Fault Refusal :=
  match Config.ofParams p with
  | some c => .next (State.resetWith c)
  | none => .refused .illegalParameters

end Sys2Proof.Machine
end

