-- ==== Sys2Proof/Machine/Dispatch.lean ====
section
/-! DEFINITION. One operation on the state: one direct call of its meaning per constructor. -/

namespace Sys2Proof.Machine

def exec (i : Instr) (s : State) : Host.Outcome State Fault Refusal :=
  match i with
  | .nop => Sys2Proof.Machine.execNop s
  | .edgeR d tUs => Sys2Proof.Machine.execEdgeR d tUs s
  | .edgeF d tUs => Sys2Proof.Machine.execEdgeF d tUs s
  | .poll tUs tMs => Sys2Proof.Machine.execPoll tUs tMs s
  | .cksumP => Sys2Proof.Machine.execCksumP s
  | .cksumK => Sys2Proof.Machine.execCksumK s
  | .reset => Sys2Proof.Machine.execReset s

end Sys2Proof.Machine
end

