-- ==== Sys2Proof/Machine/Tick.lean ====
section
/-! DEFINITION. Sequences of events (R85) and one tick of the pin-level layer (30_encoding.md R118 to R120). -/

namespace Sys2Proof.Machine

/-- Events applied one after another, each to the state the previous one left (R85). -/
def applyEvents : List Instr → State → Host.Outcome State Fault Refusal
  | [], s => .next s
  | i :: is, s =>
    match exec i s with
    | .next t => applyEvents is t
    | .fault f => .fault f
    | .refused r => .refused r

/-- One sample through a chain of flip-flops, newest first: the synchronised value and the chain after.
With no flip-flop the value is the sample itself (R118, log 8). -/
def shiftSync (x : Bool) : List Bool → Bool × List Bool
  | [] => (x, [])
  | y :: q => ((shiftSync y q).1, x :: (shiftSync y q).2)

/-- The event of the edge detector: `c` is the synchronised clock level, `q` its previous sample, `dd` the
synchronised data level (R119). -/
def edgeEvents (p : Pins) (c q dd : Bool) : List Instr :=
  if p.sampEn && (c != q) then [if c then .edgeR dd p.tUs else .edgeF dd p.tUs] else []

/-- The POLL request (R120). -/
def pollEvents (p : Pins) : List Instr := if p.poll then [.poll p.tUs p.tMs] else []

/-- The checksum request (R120). -/
def ckEvents (p : Pins) : List Instr := if p.ckReq then [if p.ckRole then .cksumK else .cksumP] else []

/-- The events of one tick in their order EDGE, POLL, CKSUM; RESET alone while `rst` is 1; NOP when there
is none (R87, R120). -/
def tickEvents (p : Pins) (c q dd : Bool) : List Instr :=
  if p.rst then [.reset]
  else
    match edgeEvents p c q dd ++ pollEvents p ++ ckEvents p with
    | [] => [.nop]
    | es => es

/-- The synchronisers and `clk_q` after a tick (R118, R119: `clk_q <- c` at every tick). -/
def sampleLines (p : Pins) (s : State) : State :=
  { s with
    clkSync := (shiftSync p.kbClk s.clkSync).2
    dataSync := (shiftSync p.kbData s.dataSync).2
    clkQ := (shiftSync p.kbClk s.clkSync).1 }

/-- One tick of `sys_clk` (R118 to R120). -/
def tick (p : Pins) (s : State) : Host.Outcome State Fault Refusal :=
  applyEvents (tickEvents p (shiftSync p.kbClk s.clkSync).1 s.clkQ (shiftSync p.kbData s.dataSync).1) (sampleLines p s)

/-- One event word: refused when it spells no operation (R114), else its operation. -/
def runEventWord (w : EventWord) (s : State) : Host.Outcome State Fault Refusal :=
  match decode w with
  | .ok i => exec i s
  | .error e => .refused (.invalidEvent e)

/-- One stimulus (log 2). -/
def consume (inp : Input) (s : State) : Host.Outcome State Fault Refusal :=
  match inp with
  | .event w => runEventWord w s
  | .tick p => tick p s

end Sys2Proof.Machine
end

