-- ==== Sys2Proof/Machine/Step.lean ====
section
/-! DEFINITION. The step: the next stimulus of the environment is taken and run. -/

namespace Sys2Proof.Machine

/-- One step. With no stimulus left nothing invokes the block, which is the idle step (R241, R245). -/
def step (s : State) : Host.Outcome State Fault Refusal :=
  match s.inputs with
  | [] => exec .nop s
  | inp :: rest => consume inp { s with inputs := rest }

/-- `s` with an event word as the next stimulus. -/
def State.withFetchWord (s : State) (nbits w : Nat) : State :=
  { s with inputs := .event (BitVec.ofNat 72 (w % 2 ^ nbits)) :: s.inputs }

end Sys2Proof.Machine
end

