-- ==== Sys2Proof/Machine/Downstream.lean ====
section
/-! DEFINITION. The informative decoders and views of 49_downstream_decoders.md, as pure functions of the block's outputs. They are outside the block (R5): no operation reads or writes anything defined here. -/

namespace Sys2Proof.Machine

/-- `field(off, n)` (49_downstream_decoders.md): `uint` on a Word. -/
def field (w : BitSeq) (off n : Nat) : Nat := uint w off n

/-- The flags of command `0x05` (R252). -/
structure StatusFlags where
  ready : Bool
  error : Bool
  bypass : Bool
  memory : Bool
  armed : Bool
  program : Bool
  powerFail : Bool
deriving DecidableEq, Repr

/-- The written value of `PF_INDEX`; the document marks it unverified (R253, U4). -/
def pfIndexWritten : Nat := 29

/-- The flags of a status Word; the power-fail index is a parameter (R252, R253). -/
def statusFlags (pfIndex : Nat) (w : BitSeq) : StatusFlags :=
  ⟨bitAt w 16, bitAt w 12, bitAt w 13, bitAt w 14, bitAt w 15, bitAt w 17, bitAt w pfIndex⟩

/-- The names a status message can carry (R252). -/
inductive StatusFlag where
  | ready
  | notReady
  | error
  | bypass
  | memory
  | armed
  | program
  | powerFail
deriving DecidableEq, Repr

/-- The set of named flags a status message emits: ready or not ready always, the others only when set
(R252). The list stands for a set. -/
def emittedFlags (f : StatusFlags) : List StatusFlag :=
  (if f.ready then .ready else .notReady) ::
    ([(f.error, .error), (f.bypass, .bypass), (f.memory, .memory), (f.armed, .armed), (f.program, .program),
      (f.powerFail, .powerFail)].filter (fun x : Bool × StatusFlag => x.1)).map (fun x => x.2)

/-- Date and time of command `0xa5` (R254). -/
structure DateTime where
  year : Nat
  month : Nat
  day : Nat
  hour : Nat
  minute : Nat
deriving DecidableEq, Repr

/-- The date and time fields (R254). -/
def dateTime (w : BitSeq) : DateTime :=
  ⟨2000 + 10 * field w 9 4 + field w 13 4, field w 19 4, field w 23 5, field w 28 5, field w 33 6⟩

/-- The arm-state field (R255). -/
def armState (w : BitSeq) : BitVec 2 := BitVec.ofNat 2 (field w 41 2)

/-- The armed boolean; value 1 is not given by the document and is free (R255, U8, log 10). -/
def armedFlag (arm : BitVec 2) : Bool :=
  if arm = 2 then true else if arm = 1 then Config.armedWhenOne else false

/-- The master/user-code field, emitted when arm-state > 0: the discriminator bit and the code (R255).
The code's arithmetic is not settled and is free (log 10). -/
def codeField (w : BitSeq) : Option (Bool × Nat) :=
  if armState w = 0 then none
  else some (bitAt w 43, Config.emittedCode (armState w) (BitVec.ofNat 6 (field w 43 6)))

/-- The one reading R255 offers of the code's arithmetic; "a reading, not a transcription". -/
def codeReading (arm : BitVec 2) (raw : BitVec 6) : Int :=
  let c : Int := if arm = 2 then raw.toNat - 25 else raw.toNat
  let c := c + 1
  if 34 < c then c + 5 else c

/-- The zone banks (R256). -/
inductive Bank where
  | bankA
  | bankB
  | bankC
  | bankD
deriving DecidableEq, Repr

/-- The zones of a bank, least-significant bit first: zone `j` is `w[48 - j]` (R256). -/
def zones (w : BitSeq) : List Bool := (List.range 8).map fun j => (BitVec.ofNat 8 (field w 41 8)).getLsbD j

/-- The labels of the commands that are recognised only for labelling (R257, R106). -/
inductive VerbatimLabel where
  | keypadQuery
  | programMode
  | alarmMemory1
  | alarmMemory2
  | beepCommand1
  | beepCommand2
  | undefinedLabel
  | zoneConfiguration
deriving DecidableEq, Repr

/-- The structured content of an accepted panel Word (R250 to R258). -/
inductive PanelMessage where
  /-- Command `0x05`: the set of named flags. -/
  | status (flags : List StatusFlag)
  /-- Command `0xa5`. -/
  | clock (t : DateTime) (armed : Bool) (code : Option (Bool × Nat))
  /-- A zone bank. -/
  | zoneBank (b : Bank) (z : List Bool)
  /-- The whole Word as a labelled opaque string. -/
  | verbatim (l : VerbatimLabel) (w : BitSeq)
  /-- Any other command: the bare command code (R258). -/
  | bare (c : Byte)
deriving DecidableEq, Repr

/-- The message of an accepted panel Word, by its command code (R252 to R258). -/
def panelPlan (pfIndex : Nat) (c : Byte) (w : BitSeq) : PanelMessage :=
  if c = 0x05#8 then .status (emittedFlags (statusFlags pfIndex w))
  else if c = 0xa5#8 then .clock (dateTime w) (armedFlag (armState w)) (codeField w)
  else if c = 0x27#8 then .zoneBank .bankA (zones w)
  else if c = 0x2d#8 then .zoneBank .bankB (zones w)
  else if c = 0x34#8 then .zoneBank .bankC (zones w)
  else if c = 0x3e#8 then .zoneBank .bankD (zones w)
  else if c = 0x11#8 then .verbatim .keypadQuery w
  else if c = 0x0a#8 then .verbatim .programMode w
  else if c = 0x5d#8 then .verbatim .alarmMemory1 w
  else if c = 0x63#8 then .verbatim .alarmMemory2 w
  else if c = 0x64#8 then .verbatim .beepCommand1 w
  else if c = 0x69#8 then .verbatim .beepCommand2 w
  else if c = 0x39#8 then .verbatim .undefinedLabel w
  else if c = 0xb1#8 then .verbatim .zoneConfiguration w
  else .bare c

/-- The message of a POLL's panel result: a rejected Word produces none (R250, R251). -/
def panelMessage (pfIndex : Nat) (pcmd : Byte) (w : BitSeq) : Option PanelMessage :=
  if pcmd = 0 then none else some (panelPlan pfIndex pcmd w)

/-- The labels of the button table (R260). -/
inductive Button where
  | digit (n : Fin 10)
  | star
  | hash
  | stay
  | away
  | chime
  | reset
  | exit
  | leftArrow
  | rightArrow
  | keypadResponse
deriving DecidableEq, Repr

/-- The byte values the document does not give (N10): arguments of the keypad decoder (log 9). -/
structure KeypadTable where
  /-- `KP_OUT_CMD`. -/
  outCmd : Byte
  /-- `KP_BUTTONS`, a partial map. -/
  buttons : List (Byte × Button)
  /-- `KP_FIRE_CMD`. -/
  fireCmd : Byte
  /-- `KP_AUX_CMD`. -/
  auxCmd : Byte
  /-- `KP_PANIC_CMD`. -/
  panicCmd : Byte
deriving DecidableEq, Repr

/-- The label of a second byte (R260). -/
inductive OutputLabel where
  | button (b : Button)
  /-- An unmapped byte, with its raw value. -/
  | unknown (raw : Byte)
deriving DecidableEq, Repr

/-- The fixed labels of the three alarm command codes (R261). -/
inductive Alarm where
  | fire
  | auxiliary
  | panic
deriving DecidableEq, Repr

/-- The message of an accepted keypad Word (R259 to R262): the command byte, the label of the second byte when
the command is the sentinel, and, independently of that branch, the labels of the alarm codes it equals. -/
structure KeypadMessage where
  command : Byte
  output : Option OutputLabel
  alarms : List Alarm
deriving DecidableEq, Repr

/-- The button of a byte: `KP_BUTTONS` as a partial map, the first entry of a byte its value. -/
def lookupButton (raw : Byte) : List (Byte × Button) → Option Button
  | [] => none
  | (k, b) :: t => if k = raw then some b else lookupButton raw t

/-- The label of a second byte; an unmapped one is unknown (R260). -/
def outputLabel (t : KeypadTable) (raw : Byte) : OutputLabel :=
  match lookupButton raw t.buttons with
  | some b => .button b
  | none => .unknown raw

/-- The alarm labels of a command byte, each code by itself (R261). -/
def alarmLabels (t : KeypadTable) (c : Byte) : List Alarm :=
  ([(t.fireCmd, .fire), (t.auxCmd, .auxiliary), (t.panicCmd, .panic)].filter
    (fun x : Byte × Alarm => x.1 == c)).map (fun x => x.2)

/-- The message of an accepted keypad Word (R259 to R262). -/
def keypadPlan (t : KeypadTable) (w : BitSeq) : KeypadMessage where
  command := command w
  output := if command w = t.outCmd then some (outputLabel t (byteAt w 8)) else none
  alarms := alarmLabels t (command w)

/-- The message of a keypad Word a POLL has judged: only an accepted one, which has a 0 bit (R193), has a
message (R199, R259). The test is not on the code: an accepted Word can return 0 (R195). -/
def keypadMessage (t : KeypadTable) (w : BitSeq) : Option KeypadMessage :=
  if hasZero w then some (keypadPlan t w) else none

/-- The messages of a POLL issued in state `s`: those of the two Words it takes when it frames, none when it
does not (R169, R250, R259). -/
def pollMessages (pfIndex : Nat) (t : KeypadTable) (tMs : Word32) (s : State) :
    Option PanelMessage × Option KeypadMessage :=
  if framingReady s then (panelMessage pfIndex (acceptPanel s.pBuf tMs s).1 s.pBuf, keypadMessage t s.kPend)
  else (none, none)

/-- The characters of a bit slice, unchanged (R263). -/
def bitChars (w : BitSeq) : List Char := w.map fun b => if b then '1' else '0'

/-- A byte as 8 binary characters (R263). -/
def byteText (b : Byte) : List Char := bitChars (bits8 b)

/-- Groups of 8 bits; `n` bounds their number. DESIGN CHOICE (log 15): the 1 to 7 trailing bits, which belong
to no group of the Word (R101, R102), are shown as a last, shorter group. -/
def chunks8 : Nat → BitSeq → List BitSeq
  | 0, _ => []
  | _ + 1, [] => []
  | n + 1, w => w.take 8 :: chunks8 n (w.drop 8)

/-- The grouped view of a panel Word, 8/1/8/8/... (R264); trailing bits as in `chunks8` (log 15). -/
def panelGroups (w : BitSeq) : List BitSeq :=
  [w.take 8, (w.drop 8).take 1].filter (fun g => !g.isEmpty) ++ chunks8 w.length (w.drop 9)

/-- The grouped view of a keypad Word, 8-bit groups (R79, R264); trailing bits as in `chunks8` (log 15). -/
def keypadGroups (w : BitSeq) : List BitSeq := chunks8 w.length w

/-- The presence of the "(OK)" marker: for VALID alone; INVALID and NOTCHECKED show none (R117, R215,
R264). -/
def okMarker (r : CkOutcome) : Bool :=
  match r with
  | .notChecked => false
  | .invalid => false
  | .valid => true

/-- The views of one Word in a decode cycle (R264), as data: the text of no view is given (N11). The marker
stands beside the views, since no view is named for it (DESIGN CHOICE, log 15). -/
structure Views (α : Type) where
  raw : List Char
  grouped : List (List Char)
  message : Option α
  ok : Bool
deriving DecidableEq, Repr

/-- The views of a panel Word and the code its judgement returned; the formatting invokes the validator
(R215). -/
def panelViews (pfIndex : Nat) (pcmd : Byte) (w : BitSeq) : Views PanelMessage :=
  ⟨bitChars w, (panelGroups w).map bitChars, panelMessage pfIndex pcmd w, okMarker (checksum w panelStart)⟩

/-- The views of a keypad Word a POLL has judged. -/
def keypadViews (t : KeypadTable) (w : BitSeq) : Views KeypadMessage :=
  ⟨bitChars w, (keypadGroups w).map bitChars, keypadMessage t w, okMarker (checksum w keypadStart)⟩

end Sys2Proof.Machine
end

