-- ==== Sys2Proof/Machine/Ports.lean ====
section
/-! DEFINITION. The output ports (R60), the contexts that issue events (R295, R63), and what is observed of a trace (R23). -/

namespace Sys2Proof.Machine

/-- The values of the output ports (R60); a Word's length port is its length. -/
structure Outputs where
  status : BitVec 2
  pcmd : Byte
  kcmd : Byte
  pWord : BitSeq
  kWord : BitSeq
  led : Bool
  ckResult : BitVec 2
deriving DecidableEq, Repr

/-- Reading the ports; a read changes nothing (R77). -/
def outputs (s : State) : Outputs := ⟨s.status, s.pcmd, s.kcmd, s.pWord, s.kWord, s.led, s.ckResult⟩

/-- The port vectors `p_word[WORD_BITS-1:0]` and `p_word_len[LEN_W-1:0]` (R60, R54). -/
def pWordPort (s : State) : BitVec s.cfg.maxBits × BitVec (lenW s.cfg) :=
  (image s.cfg.maxBits s.pWord, lengthReg s.cfg s.pWord)

/-- The port vectors `k_word[WORD_BITS-1:0]` and `k_word_len[LEN_W-1:0]` (R60, R54). -/
def kWordPort (s : State) : BitVec s.cfg.maxBits × BitVec (lenW s.cfg) :=
  (image s.cfg.maxBits s.kWord, lengthReg s.cfg s.kWord)

/-- The observation values R60 allows a model to expose beside the ports: `p_len`, `k_len`, `k_pend_len`,
`interval_us`, `last_edge_us`. -/
def observed (s : State) : Nat × Nat × Nat × Word32 × Word32 :=
  (s.pBuf.length, s.kBuf.length, s.kPend.length, s.intervalUs, s.lastEdgeUs)

/-- The observation of a trace: the outputs after each event (R23). -/
def observe : List Instr → State → List Outputs
  | [], _ => []
  | i :: is, s =>
    match exec i s with
    | .next t => outputs t :: observe is t
    | .fault _ => []
    | .refused _ => []

/-- Who issues an event (R295). -/
inductive Context where
  | sampler
  | poll
  | environment
deriving DecidableEq, Repr

/-- The context an operation is issued from (R295). -/
def contextOf : Instr → Context
  | .nop => .environment
  | .edgeR _ _ => .sampler
  | .edgeF _ _ => .sampler
  | .poll _ _ => .poll
  | .cksumP => .poll
  | .cksumK => .poll
  | .reset => .environment

/-- Saturation of a buffer, a predicate and no flag (R51, R283). -/
def saturated (c : Config) (w : BitSeq) : Bool := w.length == c.maxBits

end Sys2Proof.Machine
end

