-- ==== Sys2Proof/Machine/Trace.lean ====
section
/-! DEFINITION. Traces: the text of a line (R113), pseudo-events and the order of their expansion (R115), and the text of an event word (R110). -/

namespace Sys2Proof.Machine

/-- An event with its written time, if it has one. -/
abbrev Timed := Option Nat × Instr

/-- The 32-bit operand of a written time (R110). -/
def timeWord (t : Nat) : Word32 := BitVec.ofNat 32 t

/-- `PAIR k p @T`: `FALL k @T`, then `RISE p @T+500` (R115). -/
def expandPair (k p : Bool) (t : Nat) : List Timed :=
  [(some t, .edgeF k (timeWord t)), (some (t + 500), .edgeR p (timeWord (t + 500)))]

/-- `WORD P K @T`: `PAIR K[i] P[i] @T+1000*i` (R115). -/
def expandWord : BitSeq → BitSeq → Nat → List Timed
  | p :: ps, k :: ks, t => expandPair k p t ++ expandWord ps ks (t + 1000)
  | _, _, _ => []

/-- The events of one line (R113, R115). -/
def expandLine : TraceLine → List Timed
  | .rise d t => [(some t, .edgeR d (timeWord t))]
  | .fall d t => [(some t, .edgeF d (timeWord t))]
  | .poll t m => [(some t, .poll (timeWord t) (timeWord m))]
  | .cksumP => [(none, .cksumP)]
  | .cksumK => [(none, .cksumK)]
  | .reset => [(none, .reset)]
  | .nop => [(none, .nop)]
  | .pair k p t => expandPair k p t
  | .word p k t => expandWord p k t

/-- The line is shorthand (R115). -/
def isPseudo : TraceLine → Bool
  | .rise _ _ => false
  | .fall _ _ => false
  | .poll _ _ => false
  | .cksumP => false
  | .cksumK => false
  | .reset => false
  | .nop => false
  | .pair _ _ _ => true
  | .word _ _ _ => true

/-- The untimed events before the first timed one, and each timed event with the untimed events that
follow it (R115: they keep their place after the event they follow). -/
def blocks : List Timed → List Instr × List (Nat × List Instr)
  | [] => ([], [])
  | (none, i) :: es => (i :: (blocks es).1, (blocks es).2)
  | (some t, i) :: es => ([], (t, i :: (blocks es).1) :: (blocks es).2)

/-- Insertion before the first block that is not earlier, so that equal times keep text order. -/
def insertBlock (b : Nat × List Instr) : List (Nat × List Instr) → List (Nat × List Instr)
  | [] => [b]
  | c :: cs => if b.1 ≤ c.1 then b :: c :: cs else c :: insertBlock b cs

/-- Events ordered by time (R115). -/
def orderEvents (es : List Timed) : List Instr :=
  (blocks es).1 ++ (((blocks es).2.foldr insertBlock []).map fun b => b.2).flatten

/-- The events of a trace: a trace with a pseudo-event is expanded and then ordered, one without is taken
as written (R113, R115). -/
def expandTrace (ls : List TraceLine) : List Instr :=
  let es := (ls.map expandLine).flatten
  if ls.any isPseudo then orderEvents es else es.map fun e => e.2

/-- The stimuli of a list of events, as event words (R113). -/
def eventInputs (is : List Instr) : List Input := is.map fun i => .event (encode i)

/-- The state with a trace placed before it (log 2). -/
def State.withTrace (s : State) (ls : List TraceLine) : State := { s with inputs := eventInputs (expandTrace ls) }

/-- A hexadecimal digit's value. -/
def digitVal (c : Char) : Option Nat :=
  if '0' ≤ c ∧ c ≤ '9' then some (c.toNat - 48)
  else if 'a' ≤ c ∧ c ≤ 'f' then some (c.toNat - 87)
  else if 'A' ≤ c ∧ c ≤ 'F' then some (c.toNat - 55)
  else none

/-- Digits of a base, most significant first, after the value `acc`. -/
def readDigits (base acc : Nat) : List Char → Option Nat
  | [] => some acc
  | c :: cs =>
    match digitVal c with
    | some v => if v < base then readDigits base (base * acc + v) cs else none
    | none => none

/-- A number: decimal, or hexadecimal with `0x`, or binary with `0b` (R11, R113). -/
def readNumber : List Char → Option Nat
  | [] => none
  | '0' :: 'x' :: c :: cs => readDigits 16 0 (c :: cs)
  | '0' :: 'b' :: c :: cs => readDigits 2 0 (c :: cs)
  | cs => readDigits 10 0 cs

/-- The part before the first `sep`, and the part after it if there is one. -/
def cutAt (sep : Char) : List Char → List Char × Option (List Char)
  | [] => ([], none)
  | c :: cs => if c = sep then ([], some cs) else (c :: (cutAt sep cs).1, (cutAt sep cs).2)

/-- The words of a line, separated by spaces. -/
def wordsOf : List Char → List (List Char)
  | [] => []
  | ' ' :: cs => wordsOf cs
  | c :: cs =>
    match cs, wordsOf cs with
    | [], _ => [[c]]
    | ' ' :: _, ws => [c] :: ws
    | _, w :: ws => (c :: w) :: ws
    | _, [] => [[c]]

/-- `@T`. -/
def readTime : List Char → Option Nat
  | '@' :: cs => readNumber cs
  | _ => none

/-- `@T,M`. -/
def readTimes : List Char → Option (Nat × Nat)
  | '@' :: cs =>
    match cutAt ',' cs with
    | (a, some b) =>
      match readNumber a, readNumber b with
      | some t, some m => some (t, m)
      | _, _ => none
    | (_, none) => none
  | _ => none

/-- A bit string; the underscores of the spec's own listings are read as spaces (log 11). -/
def readBits : List Char → Option BitSeq
  | [] => some []
  | c :: cs =>
    match readBits cs with
    | none => none
    | some w =>
      if c = '0' then some (false :: w)
      else if c = '1' then some (true :: w)
      else if c = '_' then some w
      else none

/-- The two strings and the time of a WORD. Spaces in the strings are ignored and the strings have equal
length (R115), so the bits before `@T` are cut in the middle (log 11). -/
def readWordOperands (bits : BitSeq) : List (List Char) → Option TraceLine
  | [] => none
  | [t] =>
    match readTime t with
    | some t => if bits.length % 2 = 0 then some (.word (bits.take (bits.length / 2)) (bits.drop (bits.length / 2)) t) else none
    | none => none
  | w :: ws =>
    match readBits w with
    | some b => readWordOperands (bits ++ b) ws
    | none => none

/-- One line of a trace (R113, R115); none when it is no line of the syntax. -/
def readLine (line : List Char) : Option TraceLine :=
  match wordsOf line with
  | [['C', 'K', 'S', 'U', 'M', '.', 'P']] => some .cksumP
  | [['C', 'K', 'S', 'U', 'M', '.', 'K']] => some .cksumK
  | [['R', 'E', 'S', 'E', 'T']] => some .reset
  | [['N', 'O', 'P']] => some .nop
  | [['R', 'I', 'S', 'E'], d, t] =>
    match readBits d, readTime t with
    | some [b], some t => some (.rise b t)
    | _, _ => none
  | [['F', 'A', 'L', 'L'], d, t] =>
    match readBits d, readTime t with
    | some [b], some t => some (.fall b t)
    | _, _ => none
  | [['P', 'O', 'L', 'L'], t] => (readTimes t).map fun x => .poll x.1 x.2
  | [['P', 'A', 'I', 'R'], k, p, t] =>
    match readBits k, readBits p, readTime t with
    | some [a], some [b], some t => some (.pair a b t)
    | _, _, _ => none
  | ['W', 'O', 'R', 'D'] :: ws => readWordOperands [] ws
  | _ => none

/-- A hexadecimal digit in upper case. -/
def hexDigit (v : Nat) : Char := if v < 10 then Char.ofNat (48 + v) else Char.ofNat (55 + v)

/-- `n` hexadecimal digits of a number, most significant first. -/
def hexDigits (v : Nat) : Nat → List Char
  | 0 => []
  | n + 1 => hexDigits (v / 16) n ++ [hexDigit (v % 16)]

/-- The text of an event word: header, `t_ms`, `t_us`, joined by underscores (R110). -/
def eventText (w : EventWord) : List Char :=
  hexDigits (w.extractLsb' 64 8).toNat 2 ++ ['_'] ++ hexDigits (w.extractLsb' 32 32).toNat 8 ++ ['_']
    ++ hexDigits (w.extractLsb' 0 32).toNat 8

/-- An event word from its text (R110); none when the text is not of that form. -/
def readEventText (cs : List Char) : Option EventWord :=
  match cs with
  | a :: b :: '_' :: cs =>
    match cutAt '_' cs with
    | (m, some u) =>
      if m.length = 8 ∧ u.length = 8 then
        match readDigits 16 0 [a, b], readDigits 16 0 m, readDigits 16 0 u with
        | some h, some m, some u => some (BitVec.ofNat 8 h ++ BitVec.ofNat 32 m ++ BitVec.ofNat 32 u)
        | _, _, _ => none
      else none
    | (_, none) => none
  | _ => none

end Sys2Proof.Machine
end

