-- ==== Sys2Proof/Safety.lean ====
section
/-! DEFINITION. What counts as a good state and a safe run: the invariants of 10_state.md section 9 (R64 to R68), and the variant block of R166. -/

namespace Sys2Proof.Machine

/-- R65: the panel Word is empty or at least 8 bits long; the same of the last accepted one (R67). -/
def longOrEmpty (w : BitSeq) : Prop := w = [] ∨ 8 ≤ w.length

/-- The invariants of 10_state.md section 9, with R47's unused code and the lengths of the two
synchroniser chains (R118). -/
structure State.Good (s : State) : Prop where
  /-- R64. -/
  memory : Memory.wf s = true
  /-- R65. -/
  panelWord : longOrEmpty s.pWord
  /-- R67: `status[0] == (pcmd != 0)`, `status[1] == (kcmd != 0)`. -/
  statusPanel : s.status.getLsbD 0 = (s.pcmd != 0)
  statusKeypad : s.status.getLsbD 1 = (s.kcmd != 0)
  /-- R67: the last accepted panel Word is empty, or at least 8 bits long with a non-zero command. -/
  prevPanel : s.prevP = [] ∨ (8 ≤ s.prevP.length ∧ command s.prevP ≠ 0)
  /-- R68: the last accepted keypad Word is empty or has a 0 bit. -/
  prevKeypad : s.prevK = [] ∨ false ∈ s.prevK
  /-- R47: `0b01` is never produced. -/
  result : s.ckResult ≠ 0b01#2
  /-- R118: the same number of flip-flops on both lines. -/
  clkChain : s.clkSync.length = s.cfg.syncStages
  dataChain : s.dataSync.length = s.cfg.syncStages

/-- A stimulus is safe when step answers it with a next state (R280, R303); only an event word that spells
no operation is not (R304). -/
def SafeInput : Input → Prop
  | .event w => ∃ i, decode w = .ok i
  | .tick _ => True

/-- The bits a list of events offers the panel buffer: the data levels of its rising edges, in order. -/
def risingBits : List Instr → BitSeq
  | [] => []
  | .edgeR d _ :: is => d :: risingBits is
  | .edgeF _ _ :: is => risingBits is
  | .nop :: is => risingBits is
  | .poll _ _ :: is => risingBits is
  | .cksumP :: is => risingBits is
  | .cksumK :: is => risingBits is
  | .reset :: is => risingBits is

/-- The bits a list of events offers the keypad buffer: the data levels of its falling edges, in order. -/
def fallingBits : List Instr → BitSeq
  | [] => []
  | .edgeF d _ :: is => d :: fallingBits is
  | .edgeR _ _ :: is => fallingBits is
  | .nop :: is => fallingBits is
  | .poll _ _ :: is => fallingBits is
  | .cksumP :: is => fallingBits is
  | .cksumK :: is => fallingBits is
  | .reset :: is => fallingBits is

/-- Events that neither frame nor reset: edges, checksums and NOPs. -/
def capturesOnly : Instr → Bool
  | .edgeR _ _ => true
  | .edgeF _ _ => true
  | .cksumP => true
  | .cksumK => true
  | .nop => true
  | .poll _ _ => false
  | .reset => false

/-- Every edge of the list comes at most `TH_K` after the edge before it, the first one after `last`: no
boundary edge (R131). -/
def inWord (c : Config) : Word32 → List Instr → Bool
  | _, [] => true
  | last, .edgeR _ t :: is => !isBoundary c (sub32 t last) && inWord c t is
  | last, .edgeF _ t :: is => !isBoundary c (sub32 t last) && inWord c t is
  | last, .nop :: is => inWord c last is
  | last, .poll _ _ :: is => inWord c last is
  | last, .cksumP :: is => inWord c last is
  | last, .cksumK :: is => inWord c last is
  | last, .reset :: is => inWord c last is

/-- The block that R166 compares with: a POLL that frames leaves `k_pend` as it was. -/
def execKeepingPending (i : Instr) (s : State) : Host.Outcome State Fault Refusal :=
  match i, exec i s with
  | .poll _ _, .next t => .next { t with kPend := s.kPend }
  | .nop, o => o
  | .edgeR _ _, o => o
  | .edgeF _ _, o => o
  | .cksumP, o => o
  | .cksumK, o => o
  | .reset, o => o
  | .poll _ _, o => o

/-- The observation (R23) of the block that keeps the pending keypad Word. -/
def observeKeepingPending : List Instr → State → List Outputs
  | [], _ => []
  | i :: is, s =>
    match execKeepingPending i s with
    | .next t => outputs t :: observeKeepingPending is t
    | .fault _ => []
    | .refused _ => []

/-- The synchronised values of a list of samples, one a tick, through a chain of flip-flops (R118). -/
def syncRun (q : List Bool) : List Bool → List Bool
  | [] => []
  | x :: xs => (shiftSync x q).1 :: syncRun (shiftSync x q).2 xs

/-- The panel Word `bits8(b0) ++ [f] ++ bits8(b1) ++ … ++ bits8(g)`: header `b0`, framing bit `f`, payload
groups `bs`, final group `g` (R221). -/
def panelMessageBits (b0 : Byte) (f : Bool) (bs : List Byte) (g : Byte) : BitSeq :=
  bits8 b0 ++ [f] ++ (bs.map bits8).flatten ++ bits8 g

/-- The keypad Word built the same way without the framing bit (R221). -/
def keypadMessageBits (b0 : Byte) (bs : List Byte) (g : Byte) : BitSeq :=
  bits8 b0 ++ (bs.map bits8).flatten ++ bits8 g

end Sys2Proof.Machine
end

