-- ==== Sys2Proof/Certificates/Slice0/Obligations.lean ====
section
/-! DEFINITION. The statements for the provers. Comparisons are written with numbers, not with the model's own thresholds, flags or tests. -/

open Sys2Proof
open Sys2Proof.Machine

/-! ## Encoding and the step -/

/-- R110, R111, R113: every operation's event word decodes to it. -/
def Obligations.DecodeInvertsEncode : Prop :=
  ∀ i : Instr, i.wf = true ∧ decode (encode i) = .ok i

/-- R110, R111: a word decodes to an operation exactly when it agrees with the operation's event word on the
header and on the time fields the operation uses; all other bits are ignored. -/
def Obligations.DecodeReadsExactlyTheUsedBits : Prop :=
  ∀ (w : EventWord) (i : Instr), decode w = .ok i ↔ w &&& usedBits i = encode i

/-- R111: the opcode map by header match and mask, and POLL's `t_us` is read by no rule. -/
def Obligations.OpcodeMapByHeader : Prop :=
  (∀ w : EventWord, decode w = .ok .nop ↔ w.extractLsb' 64 8 = 0x00#8) ∧
  (∀ (w : EventWord) (d : Bool) (t : Word32), decode w = .ok (.edgeR d t) ↔
    w.extractLsb' 64 8 &&& 0xEF#8 = 0x20#8 ∧ d = w.getLsbD 68 ∧ t = w.extractLsb' 0 32) ∧
  (∀ (w : EventWord) (d : Bool) (t : Word32), decode w = .ok (.edgeF d t) ↔
    w.extractLsb' 64 8 &&& 0xEF#8 = 0x40#8 ∧ d = w.getLsbD 68 ∧ t = w.extractLsb' 0 32) ∧
  (∀ (w : EventWord) (u m : Word32), decode w = .ok (.poll u m) ↔
    w.extractLsb' 64 8 = 0x60#8 ∧ u = w.extractLsb' 0 32 ∧ m = w.extractLsb' 32 32) ∧
  (∀ w : EventWord, decode w = .ok .cksumP ↔ w.extractLsb' 64 8 = 0x80#8) ∧
  (∀ w : EventWord, decode w = .ok .cksumK ↔ w.extractLsb' 64 8 = 0xA0#8) ∧
  (∀ w : EventWord, decode w = .ok .reset ↔ w.extractLsb' 64 8 = 0xE0#8) ∧
  (∀ (u u' m : Word32) (s : State), exec (.poll u m) s = exec (.poll u' m) s)

/-- R114: the words that spell no operation, and the refusal of the trace at that line. -/
def Obligations.InvalidEventWordsAreRefused : Prop :=
  ∀ w : EventWord,
    ((w.extractLsb' 69 3 = 0b110#3 ∨ w.extractLsb' 64 4 ≠ 0#4 ∨
        (w.getLsbD 68 = true ∧ w.extractLsb' 69 3 ≠ 0b001#3 ∧ w.extractLsb' 69 3 ≠ 0b010#3)) →
      (∃ e, decode w = .error e) ∧
      ∀ (s : State) (rest : List Input), s.inputs = .event w :: rest →
        ∃ e, step s = .refused (.invalidEvent e)) ∧
    (¬(w.extractLsb' 69 3 = 0b110#3 ∨ w.extractLsb' 64 4 ≠ 0#4 ∨
        (w.getLsbD 68 = true ∧ w.extractLsb' 69 3 ≠ 0b001#3 ∧ w.extractLsb' 69 3 ≠ 0b010#3)) →
      ∃ i, decode w = .ok i)

/-- R110, R111: a few words written out from the table. -/
def Obligations.WordsOfTheOpcodeTableDecode : Prop :=
  decode 0x300000000000004E20#72 = .ok (.edgeR true 20000#32) ∧
  decode 0x500000000000004E20#72 = .ok (.edgeF true 20000#32) ∧
  decode 0x600000003C0000E8D0#72 = .ok (.poll 59600#32 60#32) ∧
  decode 0x800000000000000000#72 = .ok .cksumP ∧
  decode 0xA00000000000000000#72 = .ok .cksumK ∧
  decode 0xE00000000000000000#72 = .ok .reset ∧
  decode 0x00FFFFFFFFFFFFFFFF#72 = .ok .nop

/-- The step runs the decoded event word next in line, and is idle when there is none (the model's own
form, log 2). -/
def Obligations.StepRunsTheNextEvent : Prop :=
  (∀ (s : State) (w : EventWord) (rest : List Input) (i : Instr),
    s.inputs = .event w :: rest → decode w = .ok i → step s = exec i { s with inputs := rest }) ∧
  (∀ (s : State) (p : Pins) (rest : List Input),
    s.inputs = .tick p :: rest → step s = tick p { s with inputs := rest }) ∧
  (∀ (s : State) (nbits w : Nat) (i : Instr),
    decodeTableWord nbits w = some i → step (s.withFetchWord nbits w) = exec i s) ∧
  (∀ s : State, s.inputs = [] → step s = .next s)

/-- R280, R303, R304: every operation answers a next state, and a step stops only on an event word that
spells no operation. -/
def Obligations.StepStopsOnlyOnInvalidWords : Prop :=
  (∀ (i : Instr) (s : State), ∃ t, exec i s = .next t) ∧
  (∀ s : State, (∃ t, step s = .next t) ∨
    ∃ w rest e, s.inputs = .event w :: rest ∧ decode w = .error e ∧ step s = .refused (.invalidEvent e))

/-- The model's own form (log 2): a step takes one stimulus and no operation touches the rest. -/
def Obligations.StepConsumesOneStimulus : Prop :=
  ∀ s t : State, step s = .next t → t.inputs = s.inputs.tail

/-- R243: no event and no tick changes a parameter. -/
def Obligations.ParametersNeverChange : Prop :=
  ∀ s t : State, step s = .next t → t.cfg = s.cfg

/-! ## Time and parameters -/

/-- R14: `sub32`. -/
def Obligations.ElapsedTimeIsModular : Prop :=
  (∀ a b : Word32, (sub32 a b).toNat = (a.toNat + (2 ^ 32 - b.toNat)) % 2 ^ 32) ∧
  (∀ x y : Nat, x ≤ y → y - x < 2 ^ 32 →
    (sub32 (BitVec.ofNat 32 y) (BitVec.ofNat 32 x)).toNat = y - x)

/-- R8: the two thresholds are exact. -/
def Obligations.ThresholdsAreExact : Prop :=
  ∀ c : Config, (thK c).toNat = c.wbiUs - c.guardUs ∧ (thP c).toNat = c.wbiUs + c.guardUs ∧ thK c ≤ thP c

/-- R304, U12: a parameter set that breaks a constraint of R7 is refused, any other is built as written and
starts in its reset state. -/
def Obligations.LaunchRefusesIllegalParameters : Prop :=
  ∀ p : Params,
    ((p.maxBits < 8 ∨ p.wbiUs < p.guardUs ∨ 2 ^ 32 ≤ p.wbiUs + p.guardUs) →
      launch p = .refused .illegalParameters) ∧
    ((8 ≤ p.maxBits ∧ p.guardUs ≤ p.wbiUs ∧ p.wbiUs + p.guardUs < 2 ^ 32) →
      ∃ c : Config, c.params = p ∧ launch p = .next (State.resetWith c))

/-! ## The Sampler -/

/-- R131: the timing part of both kinds of edge, made before the edge is classified; the hand-off happens
whatever the keypad buffer and the pending Word hold. -/
def Obligations.EdgeTimingRule : Prop :=
  (∀ (now : Word32) (s : State),
    (s.cfg.wbiUs - s.cfg.guardUs < (now - s.lastEdgeUs).toNat →
      edgeTiming now s =
        { s with intervalUs := now - s.lastEdgeUs, lastEdgeUs := now, kPend := s.kBuf, kBuf := [] }) ∧
    ((now - s.lastEdgeUs).toNat ≤ s.cfg.wbiUs - s.cfg.guardUs →
      edgeTiming now s = { s with intervalUs := now - s.lastEdgeUs, lastEdgeUs := now })) ∧
  (∀ (d : Bool) (t : Word32) (s : State),
    exec (.edgeR d t) s = .next (appendPanel d (edgeTiming t s)) ∧
    exec (.edgeF d t) s = .next (appendKeypad d (edgeTiming t s)))

/-- R133, R136: EDGE.R on every state. -/
def Obligations.RisingEdgeEffect : Prop :=
  ∀ (d : Bool) (t : Word32) (s : State),
    exec (.edgeR d t) s = .next
      { s with
        intervalUs := t - s.lastEdgeUs
        lastEdgeUs := t
        kPend := if s.cfg.wbiUs - s.cfg.guardUs < (t - s.lastEdgeUs).toNat then s.kBuf else s.kPend
        kBuf := if s.cfg.wbiUs - s.cfg.guardUs < (t - s.lastEdgeUs).toNat then [] else s.kBuf
        pBuf := if s.pBuf.length < s.cfg.maxBits then s.pBuf ++ [d] else s.pBuf }

/-- R134, R137: EDGE.F on every state; on a boundary edge the append always succeeds. -/
def Obligations.FallingEdgeEffect : Prop :=
  ∀ (d : Bool) (t : Word32) (s : State),
    exec (.edgeF d t) s = .next
      { s with
        intervalUs := t - s.lastEdgeUs
        lastEdgeUs := t
        kPend := if s.cfg.wbiUs - s.cfg.guardUs < (t - s.lastEdgeUs).toNat then s.kBuf else s.kPend
        kBuf :=
          if s.cfg.wbiUs - s.cfg.guardUs < (t - s.lastEdgeUs).toNat then [d]
          else if s.kBuf.length < s.cfg.maxBits then s.kBuf ++ [d] else s.kBuf }

/-- R92, R133, R134 by single bits: a non-boundary edge stores at most one bit, at the index
that is the old length of its role's buffer; every other bit of every register reads as before. -/
def Obligations.EdgeStoresOneBit : Prop :=
  (∀ (d : Bool) (t : Word32) (s s' : State), exec (.edgeR d t) s = .next s' →
    (∀ j, j ≠ s.pBuf.length → bitAt s'.pBuf j = bitAt s.pBuf j) ∧
    (s.pBuf.length < s.cfg.maxBits → bitAt s'.pBuf s.pBuf.length = d ∧ s'.pBuf.length = s.pBuf.length + 1) ∧
    ((t - s.lastEdgeUs).toNat ≤ s.cfg.wbiUs - s.cfg.guardUs →
      ∀ j, bitAt s'.kBuf j = bitAt s.kBuf j ∧ bitAt s'.kPend j = bitAt s.kPend j) ∧
    (∀ j, bitAt s'.pWord j = bitAt s.pWord j ∧ bitAt s'.kWord j = bitAt s.kWord j ∧
      bitAt s'.prevP j = bitAt s.prevP j ∧ bitAt s'.prevK j = bitAt s.prevK j)) ∧
  (∀ (d : Bool) (t : Word32) (s s' : State), exec (.edgeF d t) s = .next s' →
    (t - s.lastEdgeUs).toNat ≤ s.cfg.wbiUs - s.cfg.guardUs →
    (∀ j, j ≠ s.kBuf.length → bitAt s'.kBuf j = bitAt s.kBuf j) ∧
    (s.kBuf.length < s.cfg.maxBits → bitAt s'.kBuf s.kBuf.length = d ∧ s'.kBuf.length = s.kBuf.length + 1) ∧
    (∀ j, bitAt s'.pBuf j = bitAt s.pBuf j ∧ bitAt s'.kPend j = bitAt s.kPend j ∧
      bitAt s'.pWord j = bitAt s.pWord j ∧ bitAt s'.kWord j = bitAt s.kWord j ∧
      bitAt s'.prevP j = bitAt s.prevP j ∧ bitAt s'.prevK j = bitAt s.prevK j))

/-- R135: a panel buffer fed exactly `MAX_BITS` bits holds them all; a saturated buffer drops the bit while the
timing part of the edge acts; it takes bits again after it is emptied, the panel buffer by a POLL that frames
or by RESET, the keypad buffer by a boundary edge or by RESET. -/
def Obligations.SaturationRule : Prop :=
  (∀ (s : State) (es : List (Bool × Word32)), s.pBuf = [] → es.length = s.cfg.maxBits →
    ∃ t, applyEvents (es.map fun e => .edgeR e.1 e.2) s = .next t ∧ t.pBuf = es.map (fun e => e.1)) ∧
  (∀ (d : Bool) (u : Word32) (s : State), s.pBuf.length = s.cfg.maxBits →
    exec (.edgeR d u) s = .next (edgeTiming u s)) ∧
  (∀ (d : Bool) (u : Word32) (s : State), s.kBuf.length = s.cfg.maxBits →
    ((u - s.lastEdgeUs).toNat ≤ s.cfg.wbiUs - s.cfg.guardUs →
      exec (.edgeF d u) s = .next (edgeTiming u s)) ∧
    (s.cfg.wbiUs - s.cfg.guardUs < (u - s.lastEdgeUs).toNat →
      exec (.edgeF d u) s = .next { edgeTiming u s with kPend := s.kBuf, kBuf := [d] })) ∧
  (∀ (u m : Word32) (s : State), s.cfg.wbiUs + s.cfg.guardUs < s.intervalUs.toNat →
    s.pBuf.length = s.cfg.maxBits → ∃ t, exec (.poll u m) s = .next t ∧ t.pBuf = []) ∧
  (∀ s : State, ∃ t, exec .reset s = .next t ∧ t.pBuf = [] ∧ t.kBuf = [])

/-- R71, R133: while nothing frames or resets, the panel buffer collects the bits of the rising edges in
order, cut at `MAX_BITS` (the spec's own inference in 70_reset_and_hazards.md, H5). -/
def Obligations.PanelBufferCollectsRisingBits : Prop :=
  ∀ (es : List Instr) (s : State), es.all capturesOnly = true → s.pBuf.length ≤ s.cfg.maxBits →
    ∃ t, applyEvents es s = .next t ∧ t.pBuf = (s.pBuf ++ risingBits es).take s.cfg.maxBits

/-- R131, R134: between two boundary edges the keypad buffer collects the bits of the falling edges in order,
cut at `MAX_BITS`, and the pending Word stays (the spec's own inference in 70_reset_and_hazards.md, H8). -/
def Obligations.KeypadBufferCollectsFallingBits : Prop :=
  ∀ (es : List Instr) (s : State), es.all capturesOnly = true →
    inWord s.cfg s.lastEdgeUs es = true → s.kBuf.length ≤ s.cfg.maxBits →
    ∃ t, applyEvents es s = .next t ∧ t.kBuf = (s.kBuf ++ fallingBits es).take s.cfg.maxBits ∧
      t.kPend = s.kPend

/-! ## The Framer and the acceptances -/

/-- R160, R164, R169: POLL on every state, without a ready Word and with one. The tests on the two Words
are R190 and R193. -/
def Obligations.PollEffect : Prop :=
  (∀ (u m : Word32) (s : State),
    ¬(s.cfg.wbiUs + s.cfg.guardUs < s.intervalUs.toNat ∧ 8 ≤ s.pBuf.length) →
    exec (.poll u m) s = .next
      { s with pcmd := 0, kcmd := 0, status := 0, led := decide ((m - s.lastActivityMs).toNat ≤ 500) }) ∧
  (∀ (u m : Word32) (s : State),
    s.cfg.wbiUs + s.cfg.guardUs < s.intervalUs.toNat → 8 ≤ s.pBuf.length →
    exec (.poll u m) s = .next
      { s with
        led := decide ((m - s.lastActivityMs).toNat ≤ 500)
        pWord := s.pBuf
        pBuf := []
        kWord := s.kPend
        kPend := []
        pcmd := if s.pBuf = s.prevP then 0 else command s.pBuf
        kcmd := if false ∈ s.kPend then command s.kPend else 0
        prevP := if command s.pBuf ≠ 0 ∧ s.pBuf ≠ s.prevP then s.pBuf else s.prevP
        prevK := if false ∈ s.kPend then s.kPend else s.prevK
        lastActivityMs :=
          if (command s.pBuf ≠ 0 ∧ s.pBuf ≠ s.prevP) ∨ false ∈ s.kPend then m else s.lastActivityMs
        lastStatusMs := if command s.pBuf = 5 ∧ s.pBuf ≠ s.prevP then m else s.lastStatusMs
        status := BitVec.ofNat 2
          ((if false ∈ s.kPend ∧ command s.kPend ≠ 0 then 2 else 0) +
            (if command s.pBuf ≠ 0 ∧ s.pBuf ≠ s.prevP then 1 else 0)) })

/-- R168: the two bits of the status, after every POLL. -/
def Obligations.StatusSaysWhichWordsDecoded : Prop :=
  ∀ (u m : Word32) (s : State), ∃ t, exec (.poll u m) s = .next t ∧
    t.status.toNat = (if t.kcmd ≠ 0 then 2 else 0) + (if t.pcmd ≠ 0 then 1 else 0)

/-- R162, with the spec's own inference that no edge, checksum or NOP moves the indicator. -/
def Obligations.IndicatorFollowsActivityAtPolls : Prop :=
  (∀ (u m : Word32) (s : State), ∃ t, exec (.poll u m) s = .next t ∧
    t.led = decide ((m - s.lastActivityMs).toNat ≤ 500)) ∧
  (∀ (u m : Word32) (s : State), s.lastActivityMs = 0 → m.toNat ≤ 500 →
    ∃ t, exec (.poll u m) s = .next t ∧ t.led = true) ∧
  (∀ (i : Instr) (s t : State), (∀ u m, i ≠ .poll u m) → i ≠ .reset → exec i s = .next t → t.led = s.led)

/-- The spec's own inference in 41_framer.md section 5: after a POLL the next POLL consumes nothing unless an
edge came between, and an edge whose interval does not exceed `TH_P` closes the window. -/
def Obligations.PollFramesAtMostOnce : Prop :=
  (∀ (u m u' m' : Word32) (s t : State), exec (.poll u m) s = .next t →
    exec (.poll u' m') t = .next
      { t with pcmd := 0, kcmd := 0, status := 0, led := decide ((m' - t.lastActivityMs).toNat ≤ 500) }) ∧
  (∀ (d : Bool) (x u m : Word32) (s : State) (i : Instr), (i = .edgeR d x ∨ i = .edgeF d x) →
    (x - s.lastEdgeUs).toNat ≤ s.cfg.wbiUs + s.cfg.guardUs →
    ∃ t, exec i s = .next t ∧ ∃ t', exec (.poll u m) t = .next t' ∧
      t'.pBuf = t.pBuf ∧ t'.kPend = t.kPend ∧ t'.pWord = t.pWord ∧ t'.kWord = t.kWord ∧ t'.status = 0)

/-- R190, R191, R192: the panel acceptance. -/
def Obligations.PanelAcceptanceRule : Prop :=
  ∀ (w : BitSeq) (m : Word32) (s : State),
    ((command w = 0 ∨ w = s.prevP) → acceptPanel w m s = (0, s)) ∧
    (¬(command w = 0 ∨ w = s.prevP) →
      acceptPanel w m s = (command w,
        { s with
          lastActivityMs := m
          prevP := w
          lastStatusMs := if command w = 0x05#8 then m else s.lastStatusMs }))

/-- R198, with the fourth call the spec infers: the same panel Word twice, then another Word of the same
command, then the first again. -/
def Obligations.RepeatedPanelWordIsRejectedOnce : Prop :=
  ∀ (w w' : BitSeq) (m : Word32) (s : State),
    command w ≠ 0 → command w' = command w → w' ≠ w → w ≠ s.prevP →
    (acceptPanel w m s).1 = command w ∧
    (acceptPanel w m (acceptPanel w m s).2) = (0, (acceptPanel w m s).2) ∧
    (acceptPanel w' m (acceptPanel w m s).2).1 = command w ∧
    (acceptPanel w m (acceptPanel w' m (acceptPanel w m s).2).2).1 = command w

/-- R193, R194: the keypad acceptance. -/
def Obligations.KeypadAcceptanceRule : Prop :=
  ∀ (w : BitSeq) (m : Word32) (s : State),
    ((∀ b ∈ w, b = true) → acceptKeypad w m s = (0, s)) ∧
    (false ∈ w → acceptKeypad w m s = (command w, { s with lastActivityMs := m, prevK := w }))

/-- R196: a short keypad Word is accepted with its missing low-order positions read as 0. -/
def Obligations.ShortKeypadWordReadsZeros : Prop :=
  (∀ (w : BitSeq) (m : Word32) (s : State), w.length < 8 → false ∈ w →
    (acceptKeypad w m s).1.toNat = uint w 0 w.length * 2 ^ (8 - w.length) ∧
    (acceptKeypad w m s).2 = { s with lastActivityMs := m, prevK := w }) ∧
  (∀ (m : Word32) (s : State), (acceptKeypad [true, false, true] m s).1 = 0xA0#8)

/-- R12, R13: a slice as an unsigned integer, MSB first, zero beyond the length. -/
def Obligations.SliceIsItsBinarySum : Prop :=
  (∀ (w : BitSeq) (off n : Nat),
    uint w off n = ∑ j ∈ Finset.range n, (w.getD (off + j) false).toNat * 2 ^ (n - 1 - j)) ∧
  uint [false, false, true, false, false, true, true, true] 0 8 = 0x27

/-- The spec's own inference in 41_framer.md section 3: a block that does not clear the pending keypad Word
when a POLL consumes it shows the same outputs after every event of every trace. -/
def Obligations.ClearingThePendingWordIsInvisible : Prop :=
  ∀ (es : List Instr) (s : State), observe es s = observeKeepingPending es s

/-- R115, R131 to R166 together (an inference): a Word of at least 8 and at most `MAX_BITS` bits, sent as
`WORD P K @T` after a pause of more than `TH_K`, followed by a falling edge more than `TH_P` after the last one
and then a POLL, is delivered whole, both roles, when `TH_K` is at least the half bit period of 500. -/
def Obligations.WellTimedWordIsDelivered : Prop :=
  ∀ (p k : BitSeq) (t g : Nat) (b : Bool) (u m : Word32) (s : State),
    p.length = k.length → 8 ≤ p.length → p.length ≤ s.cfg.maxBits → s.pBuf = [] →
    500 ≤ s.cfg.wbiUs - s.cfg.guardUs →
    s.cfg.wbiUs - s.cfg.guardUs < (BitVec.ofNat 32 t - s.lastEdgeUs).toNat →
    s.cfg.wbiUs + s.cfg.guardUs < g → g < 2 ^ 32 →
    ∃ r, applyEvents
        ((expandLine (.word p k t)).map (fun e => e.2) ++
          [.edgeF b (BitVec.ofNat 32 (t + 1000 * (p.length - 1) + 500 + g)), .poll u m]) s = .next r ∧
      r.pWord = p ∧ r.kWord = k ∧ r.pBuf = [] ∧ r.kBuf = [b]

/-! ## The checksum validator -/

/-- R210, R211, R213, R216: CKSUM.P on every state. -/
def Obligations.PanelChecksumEffect : Prop :=
  ∀ s : State, exec .cksumP s = .next
    { s with ckResult :=
        if s.pWord.length ≤ 8 then 0b00#2
        else if s.pWord.length < 17 then 0b10#2
        else if (uint s.pWord 0 8 +
              ∑ i ∈ Finset.range ((s.pWord.length - 9) / 8 - 1), uint s.pWord (9 + 8 * i) 8) % 256 =
            uint s.pWord (9 + 8 * ((s.pWord.length - 9) / 8 - 1)) 8 then 0b11#2
        else 0b10#2 }

/-- R210, R211, R213, R217: CKSUM.K on every state. -/
def Obligations.KeypadChecksumEffect : Prop :=
  ∀ s : State, exec .cksumK s = .next
    { s with ckResult :=
        if s.kWord.length ≤ 8 then 0b00#2
        else if s.kWord.length < 16 then 0b10#2
        else if (uint s.kWord 0 8 +
              ∑ i ∈ Finset.range ((s.kWord.length - 8) / 8 - 1), uint s.kWord (8 + 8 * i) 8) % 256 =
            uint s.kWord (8 + 8 * ((s.kWord.length - 8) / 8 - 1)) 8 then 0b11#2
        else 0b10#2 }

/-- R221 with the spec's own inference (43_checksum.md section 4): a message is valid exactly when its final
group is the sum modulo 256 of the bytes before it, whatever the framing bit and up to 7 trailing bits are. -/
def Obligations.ChecksumRoundTrip : Prop :=
  (∀ (b0 : Byte) (f : Bool) (bs : List Byte) (g : Byte) (tail : BitSeq), tail.length < 8 →
    checksum (panelMessageBits b0 f bs g ++ tail) 9 =
      if (b0.toNat + (bs.map BitVec.toNat).sum) % 256 = g.toNat then .valid else .invalid) ∧
  (∀ (b0 : Byte) (bs : List Byte) (g : Byte) (tail : BitSeq), tail.length < 8 →
    checksum (keypadMessageBits b0 bs g ++ tail) 8 =
      if (b0.toNat + (bs.map BitVec.toNat).sum) % 256 = g.toNat then .valid else .invalid)

/-- The spec's own inference in 43_checksum.md section 4: the framing bit never changes the result of
CKSUM.P. -/
def Obligations.FramingBitIsNotSummed : Prop :=
  ∀ (s t : State) (b : Bool), exec .cksumP s = .next t →
    ∃ t', exec .cksumP { s with pWord := s.pWord.set 8 b } = .next t' ∧ t'.ckResult = t.ckResult

/-- The spec's own inference in 43_checksum.md section 3: the bit-serial validator gives the result of the
function for every Word. -/
def Obligations.SerialValidatorAgrees : Prop :=
  ∀ w : BitSeq, serialChecksum w 9 = checksum w 9 ∧ serialChecksum w 8 = checksum w 8

/-! ## Reset, NOP, ownership and invariants -/

/-- R240, R62: RESET on every state, at the event level and by the reset pin, where `clk_q` follows the
synchronised clock line as the model reads R118 (log 8). -/
def Obligations.ResetEffect : Prop :=
  (∀ s : State, ∃ t, exec .reset s = .next t ∧
    t.pBuf = [] ∧ t.kBuf = [] ∧ t.kPend = [] ∧ t.lastEdgeUs = 0 ∧ t.intervalUs = 0 ∧ t.pWord = [] ∧
    t.kWord = [] ∧ t.pcmd = 0 ∧ t.kcmd = 0 ∧ t.status = 0 ∧ t.led = false ∧ t.prevP = [] ∧ t.prevK = [] ∧
    t.lastActivityMs = 0 ∧ t.lastStatusMs = 0 ∧ t.ckResult = 0b00#2) ∧
  (∀ (p : Pins) (s : State), p.rst = true → ∃ t, tick p s = .next t ∧
    t.pBuf = [] ∧ t.kBuf = [] ∧ t.kPend = [] ∧ t.lastEdgeUs = 0 ∧ t.intervalUs = 0 ∧ t.pWord = [] ∧
    t.kWord = [] ∧ t.pcmd = 0 ∧ t.kcmd = 0 ∧ t.status = 0 ∧ t.led = false ∧ t.prevP = [] ∧ t.prevK = [] ∧
    t.lastActivityMs = 0 ∧ t.lastStatusMs = 0 ∧ t.ckResult = 0b00#2 ∧
    t.clkQ = (shiftSync p.kbClk s.clkSync).1)

/-- The model's choice (log 5): RESET leaves the synchronisers to the ticks, and `clk_q` too; parameters and
stimuli are no registers. -/
def Obligations.ResetLeavesOnlyTheLines : Prop :=
  (∀ s : State, exec .reset s = .next
    { State.resetWith s.cfg with
      clkQ := s.clkQ, clkSync := s.clkSync, dataSync := s.dataSync, inputs := s.inputs }) ∧
  (∀ (p : Pins) (s : State), p.rst = true → tick p s = .next
    { State.resetWith s.cfg with
      clkQ := (shiftSync p.kbClk s.clkSync).1
      clkSync := (shiftSync p.kbClk s.clkSync).2
      dataSync := (shiftSync p.kbData s.dataSync).2
      inputs := s.inputs })

/-- The model starts in the state of R62 (log 3), and RESET shows its outputs from every state. -/
def Obligations.ResetStateIsEmpty : Prop :=
  State.reset.pBuf = [] ∧ State.reset.kBuf = [] ∧ State.reset.kPend = [] ∧ State.reset.pWord = [] ∧
  State.reset.kWord = [] ∧ State.reset.prevP = [] ∧ State.reset.prevK = [] ∧
  State.reset.lastEdgeUs = 0 ∧ State.reset.intervalUs = 0 ∧ State.reset.pcmd = 0 ∧ State.reset.kcmd = 0 ∧
  State.reset.status = 0 ∧ State.reset.led = false ∧ State.reset.lastActivityMs = 0 ∧
  State.reset.lastStatusMs = 0 ∧ State.reset.ckResult = 0b00#2 ∧
  ∀ s : State, ∃ t, exec .reset s = .next t ∧ outputs t = outputs State.reset

/-- R241: NOP changes nothing. -/
def Obligations.NopChangesNothing : Prop := ∀ s : State, exec .nop s = .next s

/-- R63: which registers each context writes. -/
def Obligations.ContextsWriteOnlyTheirRegisters : Prop :=
  ∀ (i : Instr) (s t : State), exec i s = .next t →
    (contextOf i = .sampler →
      t = { s with
        pBuf := t.pBuf, kBuf := t.kBuf, kPend := t.kPend
        lastEdgeUs := t.lastEdgeUs, intervalUs := t.intervalUs }) ∧
    (contextOf i = .poll →
      t = { s with
        pBuf := t.pBuf, kPend := t.kPend, pWord := t.pWord, kWord := t.kWord, pcmd := t.pcmd, kcmd := t.kcmd
        status := t.status, led := t.led, prevP := t.prevP, prevK := t.prevK
        lastActivityMs := t.lastActivityMs, lastStatusMs := t.lastStatusMs, ckResult := t.ckResult } ∧
      (t.pBuf = s.pBuf ∨ t.pBuf = []) ∧ (t.kPend = s.kPend ∨ t.kPend = []))

/-- The invariants the spec infers in 10_state.md section 9 hold at reset. -/
def Obligations.ResetStateIsGood : Prop := State.reset.Good

/-- The invariants the spec infers in 10_state.md section 9 are kept by every step, event or tick. -/
def Obligations.StepKeepsGood : Prop := ∀ s t : State, s.Good → step s = .next t → t.Good

/-- R54, R31: the stored bits of a register image are the bits of the sequence and 0 at and beyond its
length (the spec's inference in 10_state.md section 9), and a length within the capacity fits `LEN_W` bits. -/
def Obligations.RegisterImageIsExact : Prop :=
  ∀ (c : Config) (w : BitSeq), w.length ≤ c.maxBits →
    (∀ i < c.maxBits, (image c.maxBits w).getLsbD i = w.getD i false) ∧
    (∀ i, w.length ≤ i → (image c.maxBits w).getLsbD i = false) ∧
    (lengthReg c w).toNat = w.length

/-! ## The pin-level layer and traces -/

/-- R119, R120: the events of one tick, in their order; `c` and `dd` are the synchronised levels as the model
reads R118 (log 8). -/
def Obligations.TickAppliesItsEventsInOrder : Prop :=
  ∀ (p : Pins) (s s1 : State) (c dd : Bool),
    c = (shiftSync p.kbClk s.clkSync).1 → dd = (shiftSync p.kbData s.dataSync).1 →
    s1 = { s with
      clkQ := c, clkSync := (shiftSync p.kbClk s.clkSync).2, dataSync := (shiftSync p.kbData s.dataSync).2 } →
    (p.rst = true → tick p s = exec .reset s1) ∧
    (p.rst = false → tick p s =
      applyEvents
        ((if p.sampEn = true ∧ c ≠ s.clkQ then [if c = true then .edgeR dd p.tUs else .edgeF dd p.tUs] else []) ++
          (if p.poll = true then [.poll p.tUs p.tMs] else []) ++
          (if p.ckReq = true then [if p.ckRole = true then .cksumK else .cksumP] else [])) s1)

/-- R119, R48 (D4): after any tick, disabled ones and resetting ones among them, a tick that sees the same
clock level reports no edge, whatever it enables. -/
def Obligations.EnablingMakesNoFalseEdge : Prop :=
  ∀ (p p' : Pins) (s s1 s2 : State), tick p s = .next s1 →
    (shiftSync p'.kbClk s1.clkSync).1 = (shiftSync p.kbClk s.clkSync).1 → p'.rst = false →
    tick p' s1 = .next s2 →
    s2.lastEdgeUs = s1.lastEdgeUs ∧ s2.intervalUs = s1.intervalUs ∧ s2.kBuf = s1.kBuf ∧
      (s2.pBuf = s1.pBuf ∨ s2.pBuf = [])

/-- R118 as the model reads it (log 8): a chain of `n` flip-flops delays its line by `n` ticks. -/
def Obligations.SynchroniserDelaysByItsLength : Prop :=
  ∀ q xs : List Bool, syncRun q xs = (q.reverse ++ xs).take xs.length

/-- R115: the two pseudo-events, and the order of expanded events: none is lost or made, and the timed ones
come in order of time, each followed by the untimed ones written after it. -/
def Obligations.PseudoEventsExpandInOrder : Prop :=
  (∀ (k p : Bool) (t : Nat), (expandLine (.pair k p t)).map (fun e => e.2) =
    [.edgeF k (BitVec.ofNat 32 t), .edgeR p (BitVec.ofNat 32 (t + 500))]) ∧
  (∀ (p k : BitSeq) (t : Nat), p.length = k.length →
    expandLine (.word p k t) =
      ((List.range p.length).map fun i => expandLine (.pair (k.getD i false) (p.getD i false) (t + 1000 * i))).flatten) ∧
  (∀ es : List Timed, (orderEvents es).Perm (es.map fun e => e.2)) ∧
  (∀ es : List Timed, ((blocks es).2.foldr insertBlock []).Pairwise fun a b => a.1 ≤ b.1)

/-- R110: the text of an event word reads back as the word. -/
def Obligations.EventTextReadsBack : Prop := ∀ w : EventWord, readEventText (eventText w) = some w

/-! ## Downstream, outside the block -/

/-- R265: flipping one targeted bit of a status Word toggles exactly the named flag. -/
def Obligations.StatusFlagsAreIndependent : Prop :=
  ∀ w : BitSeq, 30 ≤ w.length →
    statusFlags 29 (w.set 16 (!bitAt w 16)) = { statusFlags 29 w with ready := !(statusFlags 29 w).ready } ∧
    statusFlags 29 (w.set 12 (!bitAt w 12)) = { statusFlags 29 w with error := !(statusFlags 29 w).error } ∧
    statusFlags 29 (w.set 13 (!bitAt w 13)) = { statusFlags 29 w with bypass := !(statusFlags 29 w).bypass } ∧
    statusFlags 29 (w.set 14 (!bitAt w 14)) = { statusFlags 29 w with memory := !(statusFlags 29 w).memory } ∧
    statusFlags 29 (w.set 15 (!bitAt w 15)) = { statusFlags 29 w with armed := !(statusFlags 29 w).armed } ∧
    statusFlags 29 (w.set 17 (!bitAt w 17)) = { statusFlags 29 w with program := !(statusFlags 29 w).program } ∧
    statusFlags 29 (w.set 29 (!bitAt w 29)) = { statusFlags 29 w with powerFail := !(statusFlags 29 w).powerFail }

/-- R256: the four zone banks; the zones are the bits of the bitmap, least-significant first. -/
def Obligations.ZonesAreTheBitmapBackwards : Prop :=
  (∀ w : BitSeq, zones w =
    [bitAt w 48, bitAt w 47, bitAt w 46, bitAt w 45, bitAt w 44, bitAt w 43, bitAt w 42, bitAt w 41]) ∧
  (∀ w : BitSeq, zones w = (List.range 8).map fun j => (field w 41 8).testBit j) ∧
  (∀ (pf : Nat) (w : BitSeq),
    panelPlan pf 0x27#8 w = .zoneBank .bankA (zones w) ∧ panelPlan pf 0x2d#8 w = .zoneBank .bankB (zones w) ∧
    panelPlan pf 0x34#8 w = .zoneBank .bankC (zones w) ∧ panelPlan pf 0x3e#8 w = .zoneBank .bankD (zones w))

/-- R252: the emitted flags of a status message, ready or not ready always and the others only when set, and the
stamp of an accepted status Word. -/
def Obligations.StatusMessageEmitsSetFlags : Prop :=
  (∀ w : BitSeq, ∃ l, panelPlan 29 0x05#8 w = .status l ∧ l.Nodup ∧
    (.ready ∈ l ↔ bitAt w 16 = true) ∧ (.notReady ∈ l ↔ bitAt w 16 = false) ∧
    (.error ∈ l ↔ bitAt w 12 = true) ∧ (.bypass ∈ l ↔ bitAt w 13 = true) ∧ (.memory ∈ l ↔ bitAt w 14 = true) ∧
    (.armed ∈ l ↔ bitAt w 15 = true) ∧ (.program ∈ l ↔ bitAt w 17 = true) ∧
    (.powerFail ∈ l ↔ bitAt w 29 = true)) ∧
  (∀ (w : BitSeq) (m : Word32) (s : State), command w = 0x05#8 → w ≠ s.prevP →
    (acceptPanel w m s).1 = 0x05#8 ∧ (acceptPanel w m s).2.lastStatusMs = m)

/-- R199: a keypad Word with no 0 bit returns 0, writes no state and has no message, wherever a POLL meets it;
the two panel rejections too. -/
def Obligations.RejectedWordsGiveNoMessage : Prop :=
  (∀ (w : BitSeq) (m : Word32) (s : State) (t : KeypadTable), (∀ b ∈ w, b = true) →
    acceptKeypad w m s = (0, s) ∧ keypadMessage t w = none) ∧
  (∀ (w : BitSeq) (m : Word32) (s : State) (pf : Nat), (command w = 0 ∨ w = s.prevP) →
    acceptPanel w m s = (0, s) ∧ panelMessage pf (acceptPanel w m s).1 w = none) ∧
  (∀ (pf : Nat) (t : KeypadTable) (u m : Word32) (s : State), (∀ b ∈ s.kPend, b = true) →
    (pollMessages pf t m s).2 = none ∧
    ∃ s', exec (.poll u m) s = .next s' ∧ s'.kcmd = 0 ∧ s'.prevK = s.prevK)

/-- R259, R261: an accepted keypad Word has a message; the second byte is looked up exactly when the command is
the sentinel, and each alarm code gives its label whatever the sentinel and the second byte are. -/
def Obligations.KeypadMessageBranches : Prop :=
  ∀ (t : KeypadTable) (w : BitSeq), false ∈ w → ∃ k, keypadMessage t w = some k ∧
    k.command = command w ∧
    (command w = t.outCmd → k.output = some (outputLabel t (byteAt w 8))) ∧
    (command w ≠ t.outCmd → k.output = none) ∧
    (.fire ∈ k.alarms ↔ command w = t.fireCmd) ∧ (.auxiliary ∈ k.alarms ↔ command w = t.auxCmd) ∧
    (.panic ∈ k.alarms ↔ command w = t.panicCmd)
end

