-- ==== Sys2Proof/Laws/State.lean ====
section
/-! SUPPORT. One lemma per field per update of State, each true by rfl, so that no proof unfolds a record update. -/

namespace Sys2Proof.Machine

@[simp] theorem handOff_cfg (s : State) : (handOff s).cfg = s.cfg := rfl
@[simp] theorem handOff_pBuf (s : State) : (handOff s).pBuf = s.pBuf := rfl
@[simp] theorem handOff_kBuf (s : State) : (handOff s).kBuf = [] := rfl
@[simp] theorem handOff_lastEdgeUs (s : State) : (handOff s).lastEdgeUs = s.lastEdgeUs := rfl
@[simp] theorem handOff_intervalUs (s : State) : (handOff s).intervalUs = s.intervalUs := rfl
@[simp] theorem handOff_kPend (s : State) : (handOff s).kPend = s.kBuf := rfl
@[simp] theorem handOff_pWord (s : State) : (handOff s).pWord = s.pWord := rfl
@[simp] theorem handOff_kWord (s : State) : (handOff s).kWord = s.kWord := rfl
@[simp] theorem handOff_pcmd (s : State) : (handOff s).pcmd = s.pcmd := rfl
@[simp] theorem handOff_kcmd (s : State) : (handOff s).kcmd = s.kcmd := rfl
@[simp] theorem handOff_status (s : State) : (handOff s).status = s.status := rfl
@[simp] theorem handOff_led (s : State) : (handOff s).led = s.led := rfl
@[simp] theorem handOff_prevP (s : State) : (handOff s).prevP = s.prevP := rfl
@[simp] theorem handOff_prevK (s : State) : (handOff s).prevK = s.prevK := rfl
@[simp] theorem handOff_lastActivityMs (s : State) : (handOff s).lastActivityMs = s.lastActivityMs := rfl
@[simp] theorem handOff_lastStatusMs (s : State) : (handOff s).lastStatusMs = s.lastStatusMs := rfl
@[simp] theorem handOff_ckResult (s : State) : (handOff s).ckResult = s.ckResult := rfl
@[simp] theorem handOff_clkQ (s : State) : (handOff s).clkQ = s.clkQ := rfl
@[simp] theorem handOff_clkSync (s : State) : (handOff s).clkSync = s.clkSync := rfl
@[simp] theorem handOff_dataSync (s : State) : (handOff s).dataSync = s.dataSync := rfl
@[simp] theorem handOff_inputs (s : State) : (handOff s).inputs = s.inputs := rfl

@[simp] theorem appendPanel_cfg (d : Bool) (s : State) : (appendPanel d s).cfg = s.cfg := rfl
@[simp] theorem appendPanel_pBuf (d : Bool) (s : State) : (appendPanel d s).pBuf = append s.cfg.maxBits s.pBuf d := rfl
@[simp] theorem appendPanel_kBuf (d : Bool) (s : State) : (appendPanel d s).kBuf = s.kBuf := rfl
@[simp] theorem appendPanel_lastEdgeUs (d : Bool) (s : State) : (appendPanel d s).lastEdgeUs = s.lastEdgeUs := rfl
@[simp] theorem appendPanel_intervalUs (d : Bool) (s : State) : (appendPanel d s).intervalUs = s.intervalUs := rfl
@[simp] theorem appendPanel_kPend (d : Bool) (s : State) : (appendPanel d s).kPend = s.kPend := rfl
@[simp] theorem appendPanel_pWord (d : Bool) (s : State) : (appendPanel d s).pWord = s.pWord := rfl
@[simp] theorem appendPanel_kWord (d : Bool) (s : State) : (appendPanel d s).kWord = s.kWord := rfl
@[simp] theorem appendPanel_pcmd (d : Bool) (s : State) : (appendPanel d s).pcmd = s.pcmd := rfl
@[simp] theorem appendPanel_kcmd (d : Bool) (s : State) : (appendPanel d s).kcmd = s.kcmd := rfl
@[simp] theorem appendPanel_status (d : Bool) (s : State) : (appendPanel d s).status = s.status := rfl
@[simp] theorem appendPanel_led (d : Bool) (s : State) : (appendPanel d s).led = s.led := rfl
@[simp] theorem appendPanel_prevP (d : Bool) (s : State) : (appendPanel d s).prevP = s.prevP := rfl
@[simp] theorem appendPanel_prevK (d : Bool) (s : State) : (appendPanel d s).prevK = s.prevK := rfl
@[simp] theorem appendPanel_lastActivityMs (d : Bool) (s : State) : (appendPanel d s).lastActivityMs = s.lastActivityMs := rfl
@[simp] theorem appendPanel_lastStatusMs (d : Bool) (s : State) : (appendPanel d s).lastStatusMs = s.lastStatusMs := rfl
@[simp] theorem appendPanel_ckResult (d : Bool) (s : State) : (appendPanel d s).ckResult = s.ckResult := rfl
@[simp] theorem appendPanel_clkQ (d : Bool) (s : State) : (appendPanel d s).clkQ = s.clkQ := rfl
@[simp] theorem appendPanel_clkSync (d : Bool) (s : State) : (appendPanel d s).clkSync = s.clkSync := rfl
@[simp] theorem appendPanel_dataSync (d : Bool) (s : State) : (appendPanel d s).dataSync = s.dataSync := rfl
@[simp] theorem appendPanel_inputs (d : Bool) (s : State) : (appendPanel d s).inputs = s.inputs := rfl

@[simp] theorem appendKeypad_cfg (d : Bool) (s : State) : (appendKeypad d s).cfg = s.cfg := rfl
@[simp] theorem appendKeypad_pBuf (d : Bool) (s : State) : (appendKeypad d s).pBuf = s.pBuf := rfl
@[simp] theorem appendKeypad_kBuf (d : Bool) (s : State) : (appendKeypad d s).kBuf = append s.cfg.maxBits s.kBuf d := rfl
@[simp] theorem appendKeypad_lastEdgeUs (d : Bool) (s : State) : (appendKeypad d s).lastEdgeUs = s.lastEdgeUs := rfl
@[simp] theorem appendKeypad_intervalUs (d : Bool) (s : State) : (appendKeypad d s).intervalUs = s.intervalUs := rfl
@[simp] theorem appendKeypad_kPend (d : Bool) (s : State) : (appendKeypad d s).kPend = s.kPend := rfl
@[simp] theorem appendKeypad_pWord (d : Bool) (s : State) : (appendKeypad d s).pWord = s.pWord := rfl
@[simp] theorem appendKeypad_kWord (d : Bool) (s : State) : (appendKeypad d s).kWord = s.kWord := rfl
@[simp] theorem appendKeypad_pcmd (d : Bool) (s : State) : (appendKeypad d s).pcmd = s.pcmd := rfl
@[simp] theorem appendKeypad_kcmd (d : Bool) (s : State) : (appendKeypad d s).kcmd = s.kcmd := rfl
@[simp] theorem appendKeypad_status (d : Bool) (s : State) : (appendKeypad d s).status = s.status := rfl
@[simp] theorem appendKeypad_led (d : Bool) (s : State) : (appendKeypad d s).led = s.led := rfl
@[simp] theorem appendKeypad_prevP (d : Bool) (s : State) : (appendKeypad d s).prevP = s.prevP := rfl
@[simp] theorem appendKeypad_prevK (d : Bool) (s : State) : (appendKeypad d s).prevK = s.prevK := rfl
@[simp] theorem appendKeypad_lastActivityMs (d : Bool) (s : State) : (appendKeypad d s).lastActivityMs = s.lastActivityMs := rfl
@[simp] theorem appendKeypad_lastStatusMs (d : Bool) (s : State) : (appendKeypad d s).lastStatusMs = s.lastStatusMs := rfl
@[simp] theorem appendKeypad_ckResult (d : Bool) (s : State) : (appendKeypad d s).ckResult = s.ckResult := rfl
@[simp] theorem appendKeypad_clkQ (d : Bool) (s : State) : (appendKeypad d s).clkQ = s.clkQ := rfl
@[simp] theorem appendKeypad_clkSync (d : Bool) (s : State) : (appendKeypad d s).clkSync = s.clkSync := rfl
@[simp] theorem appendKeypad_dataSync (d : Bool) (s : State) : (appendKeypad d s).dataSync = s.dataSync := rfl
@[simp] theorem appendKeypad_inputs (d : Bool) (s : State) : (appendKeypad d s).inputs = s.inputs := rfl

@[simp] theorem clearCodes_cfg (s : State) : (clearCodes s).cfg = s.cfg := rfl
@[simp] theorem clearCodes_pBuf (s : State) : (clearCodes s).pBuf = s.pBuf := rfl
@[simp] theorem clearCodes_kBuf (s : State) : (clearCodes s).kBuf = s.kBuf := rfl
@[simp] theorem clearCodes_lastEdgeUs (s : State) : (clearCodes s).lastEdgeUs = s.lastEdgeUs := rfl
@[simp] theorem clearCodes_intervalUs (s : State) : (clearCodes s).intervalUs = s.intervalUs := rfl
@[simp] theorem clearCodes_kPend (s : State) : (clearCodes s).kPend = s.kPend := rfl
@[simp] theorem clearCodes_pWord (s : State) : (clearCodes s).pWord = s.pWord := rfl
@[simp] theorem clearCodes_kWord (s : State) : (clearCodes s).kWord = s.kWord := rfl
@[simp] theorem clearCodes_pcmd (s : State) : (clearCodes s).pcmd = 0 := rfl
@[simp] theorem clearCodes_kcmd (s : State) : (clearCodes s).kcmd = 0 := rfl
@[simp] theorem clearCodes_status (s : State) : (clearCodes s).status = s.status := rfl
@[simp] theorem clearCodes_led (s : State) : (clearCodes s).led = s.led := rfl
@[simp] theorem clearCodes_prevP (s : State) : (clearCodes s).prevP = s.prevP := rfl
@[simp] theorem clearCodes_prevK (s : State) : (clearCodes s).prevK = s.prevK := rfl
@[simp] theorem clearCodes_lastActivityMs (s : State) : (clearCodes s).lastActivityMs = s.lastActivityMs := rfl
@[simp] theorem clearCodes_lastStatusMs (s : State) : (clearCodes s).lastStatusMs = s.lastStatusMs := rfl
@[simp] theorem clearCodes_ckResult (s : State) : (clearCodes s).ckResult = s.ckResult := rfl
@[simp] theorem clearCodes_clkQ (s : State) : (clearCodes s).clkQ = s.clkQ := rfl
@[simp] theorem clearCodes_clkSync (s : State) : (clearCodes s).clkSync = s.clkSync := rfl
@[simp] theorem clearCodes_dataSync (s : State) : (clearCodes s).dataSync = s.dataSync := rfl
@[simp] theorem clearCodes_inputs (s : State) : (clearCodes s).inputs = s.inputs := rfl

@[simp] theorem driveLed_cfg (m : Word32) (s : State) : (driveLed m s).cfg = s.cfg := rfl
@[simp] theorem driveLed_pBuf (m : Word32) (s : State) : (driveLed m s).pBuf = s.pBuf := rfl
@[simp] theorem driveLed_kBuf (m : Word32) (s : State) : (driveLed m s).kBuf = s.kBuf := rfl
@[simp] theorem driveLed_lastEdgeUs (m : Word32) (s : State) : (driveLed m s).lastEdgeUs = s.lastEdgeUs := rfl
@[simp] theorem driveLed_intervalUs (m : Word32) (s : State) : (driveLed m s).intervalUs = s.intervalUs := rfl
@[simp] theorem driveLed_kPend (m : Word32) (s : State) : (driveLed m s).kPend = s.kPend := rfl
@[simp] theorem driveLed_pWord (m : Word32) (s : State) : (driveLed m s).pWord = s.pWord := rfl
@[simp] theorem driveLed_kWord (m : Word32) (s : State) : (driveLed m s).kWord = s.kWord := rfl
@[simp] theorem driveLed_pcmd (m : Word32) (s : State) : (driveLed m s).pcmd = s.pcmd := rfl
@[simp] theorem driveLed_kcmd (m : Word32) (s : State) : (driveLed m s).kcmd = s.kcmd := rfl
@[simp] theorem driveLed_status (m : Word32) (s : State) : (driveLed m s).status = s.status := rfl
@[simp] theorem driveLed_led (m : Word32) (s : State) : (driveLed m s).led = ledLevel m s.lastActivityMs := rfl
@[simp] theorem driveLed_prevP (m : Word32) (s : State) : (driveLed m s).prevP = s.prevP := rfl
@[simp] theorem driveLed_prevK (m : Word32) (s : State) : (driveLed m s).prevK = s.prevK := rfl
@[simp] theorem driveLed_lastActivityMs (m : Word32) (s : State) : (driveLed m s).lastActivityMs = s.lastActivityMs := rfl
@[simp] theorem driveLed_lastStatusMs (m : Word32) (s : State) : (driveLed m s).lastStatusMs = s.lastStatusMs := rfl
@[simp] theorem driveLed_ckResult (m : Word32) (s : State) : (driveLed m s).ckResult = s.ckResult := rfl
@[simp] theorem driveLed_clkQ (m : Word32) (s : State) : (driveLed m s).clkQ = s.clkQ := rfl
@[simp] theorem driveLed_clkSync (m : Word32) (s : State) : (driveLed m s).clkSync = s.clkSync := rfl
@[simp] theorem driveLed_dataSync (m : Word32) (s : State) : (driveLed m s).dataSync = s.dataSync := rfl
@[simp] theorem driveLed_inputs (m : Word32) (s : State) : (driveLed m s).inputs = s.inputs := rfl

@[simp] theorem takePanel_cfg (s : State) : (takePanel s).cfg = s.cfg := rfl
@[simp] theorem takePanel_pBuf (s : State) : (takePanel s).pBuf = [] := rfl
@[simp] theorem takePanel_kBuf (s : State) : (takePanel s).kBuf = s.kBuf := rfl
@[simp] theorem takePanel_lastEdgeUs (s : State) : (takePanel s).lastEdgeUs = s.lastEdgeUs := rfl
@[simp] theorem takePanel_intervalUs (s : State) : (takePanel s).intervalUs = s.intervalUs := rfl
@[simp] theorem takePanel_kPend (s : State) : (takePanel s).kPend = s.kPend := rfl
@[simp] theorem takePanel_pWord (s : State) : (takePanel s).pWord = s.pBuf := rfl
@[simp] theorem takePanel_kWord (s : State) : (takePanel s).kWord = s.kWord := rfl
@[simp] theorem takePanel_pcmd (s : State) : (takePanel s).pcmd = s.pcmd := rfl
@[simp] theorem takePanel_kcmd (s : State) : (takePanel s).kcmd = s.kcmd := rfl
@[simp] theorem takePanel_status (s : State) : (takePanel s).status = s.status := rfl
@[simp] theorem takePanel_led (s : State) : (takePanel s).led = s.led := rfl
@[simp] theorem takePanel_prevP (s : State) : (takePanel s).prevP = s.prevP := rfl
@[simp] theorem takePanel_prevK (s : State) : (takePanel s).prevK = s.prevK := rfl
@[simp] theorem takePanel_lastActivityMs (s : State) : (takePanel s).lastActivityMs = s.lastActivityMs := rfl
@[simp] theorem takePanel_lastStatusMs (s : State) : (takePanel s).lastStatusMs = s.lastStatusMs := rfl
@[simp] theorem takePanel_ckResult (s : State) : (takePanel s).ckResult = s.ckResult := rfl
@[simp] theorem takePanel_clkQ (s : State) : (takePanel s).clkQ = s.clkQ := rfl
@[simp] theorem takePanel_clkSync (s : State) : (takePanel s).clkSync = s.clkSync := rfl
@[simp] theorem takePanel_dataSync (s : State) : (takePanel s).dataSync = s.dataSync := rfl
@[simp] theorem takePanel_inputs (s : State) : (takePanel s).inputs = s.inputs := rfl

@[simp] theorem takeKeypad_cfg (s : State) : (takeKeypad s).cfg = s.cfg := rfl
@[simp] theorem takeKeypad_pBuf (s : State) : (takeKeypad s).pBuf = s.pBuf := rfl
@[simp] theorem takeKeypad_kBuf (s : State) : (takeKeypad s).kBuf = s.kBuf := rfl
@[simp] theorem takeKeypad_lastEdgeUs (s : State) : (takeKeypad s).lastEdgeUs = s.lastEdgeUs := rfl
@[simp] theorem takeKeypad_intervalUs (s : State) : (takeKeypad s).intervalUs = s.intervalUs := rfl
@[simp] theorem takeKeypad_kPend (s : State) : (takeKeypad s).kPend = [] := rfl
@[simp] theorem takeKeypad_pWord (s : State) : (takeKeypad s).pWord = s.pWord := rfl
@[simp] theorem takeKeypad_kWord (s : State) : (takeKeypad s).kWord = s.kPend := rfl
@[simp] theorem takeKeypad_pcmd (s : State) : (takeKeypad s).pcmd = s.pcmd := rfl
@[simp] theorem takeKeypad_kcmd (s : State) : (takeKeypad s).kcmd = s.kcmd := rfl
@[simp] theorem takeKeypad_status (s : State) : (takeKeypad s).status = s.status := rfl
@[simp] theorem takeKeypad_led (s : State) : (takeKeypad s).led = s.led := rfl
@[simp] theorem takeKeypad_prevP (s : State) : (takeKeypad s).prevP = s.prevP := rfl
@[simp] theorem takeKeypad_prevK (s : State) : (takeKeypad s).prevK = s.prevK := rfl
@[simp] theorem takeKeypad_lastActivityMs (s : State) : (takeKeypad s).lastActivityMs = s.lastActivityMs := rfl
@[simp] theorem takeKeypad_lastStatusMs (s : State) : (takeKeypad s).lastStatusMs = s.lastStatusMs := rfl
@[simp] theorem takeKeypad_ckResult (s : State) : (takeKeypad s).ckResult = s.ckResult := rfl
@[simp] theorem takeKeypad_clkQ (s : State) : (takeKeypad s).clkQ = s.clkQ := rfl
@[simp] theorem takeKeypad_clkSync (s : State) : (takeKeypad s).clkSync = s.clkSync := rfl
@[simp] theorem takeKeypad_dataSync (s : State) : (takeKeypad s).dataSync = s.dataSync := rfl
@[simp] theorem takeKeypad_inputs (s : State) : (takeKeypad s).inputs = s.inputs := rfl

@[simp] theorem stampPanel_cfg (w : BitSeq) (m : Word32) (s : State) : (stampPanel w m s).cfg = s.cfg := rfl
@[simp] theorem stampPanel_pBuf (w : BitSeq) (m : Word32) (s : State) : (stampPanel w m s).pBuf = s.pBuf := rfl
@[simp] theorem stampPanel_kBuf (w : BitSeq) (m : Word32) (s : State) : (stampPanel w m s).kBuf = s.kBuf := rfl
@[simp] theorem stampPanel_lastEdgeUs (w : BitSeq) (m : Word32) (s : State) : (stampPanel w m s).lastEdgeUs = s.lastEdgeUs := rfl
@[simp] theorem stampPanel_intervalUs (w : BitSeq) (m : Word32) (s : State) : (stampPanel w m s).intervalUs = s.intervalUs := rfl
@[simp] theorem stampPanel_kPend (w : BitSeq) (m : Word32) (s : State) : (stampPanel w m s).kPend = s.kPend := rfl
@[simp] theorem stampPanel_pWord (w : BitSeq) (m : Word32) (s : State) : (stampPanel w m s).pWord = s.pWord := rfl
@[simp] theorem stampPanel_kWord (w : BitSeq) (m : Word32) (s : State) : (stampPanel w m s).kWord = s.kWord := rfl
@[simp] theorem stampPanel_pcmd (w : BitSeq) (m : Word32) (s : State) : (stampPanel w m s).pcmd = s.pcmd := rfl
@[simp] theorem stampPanel_kcmd (w : BitSeq) (m : Word32) (s : State) : (stampPanel w m s).kcmd = s.kcmd := rfl
@[simp] theorem stampPanel_status (w : BitSeq) (m : Word32) (s : State) : (stampPanel w m s).status = s.status := rfl
@[simp] theorem stampPanel_led (w : BitSeq) (m : Word32) (s : State) : (stampPanel w m s).led = s.led := rfl
@[simp] theorem stampPanel_prevP (w : BitSeq) (m : Word32) (s : State) : (stampPanel w m s).prevP = w := rfl
@[simp] theorem stampPanel_prevK (w : BitSeq) (m : Word32) (s : State) : (stampPanel w m s).prevK = s.prevK := rfl
@[simp] theorem stampPanel_lastActivityMs (w : BitSeq) (m : Word32) (s : State) : (stampPanel w m s).lastActivityMs = m := rfl
@[simp] theorem stampPanel_lastStatusMs (w : BitSeq) (m : Word32) (s : State) : (stampPanel w m s).lastStatusMs = if command w = statusCommand then m else s.lastStatusMs := rfl
@[simp] theorem stampPanel_ckResult (w : BitSeq) (m : Word32) (s : State) : (stampPanel w m s).ckResult = s.ckResult := rfl
@[simp] theorem stampPanel_clkQ (w : BitSeq) (m : Word32) (s : State) : (stampPanel w m s).clkQ = s.clkQ := rfl
@[simp] theorem stampPanel_clkSync (w : BitSeq) (m : Word32) (s : State) : (stampPanel w m s).clkSync = s.clkSync := rfl
@[simp] theorem stampPanel_dataSync (w : BitSeq) (m : Word32) (s : State) : (stampPanel w m s).dataSync = s.dataSync := rfl
@[simp] theorem stampPanel_inputs (w : BitSeq) (m : Word32) (s : State) : (stampPanel w m s).inputs = s.inputs := rfl

@[simp] theorem stampKeypad_cfg (w : BitSeq) (m : Word32) (s : State) : (stampKeypad w m s).cfg = s.cfg := rfl
@[simp] theorem stampKeypad_pBuf (w : BitSeq) (m : Word32) (s : State) : (stampKeypad w m s).pBuf = s.pBuf := rfl
@[simp] theorem stampKeypad_kBuf (w : BitSeq) (m : Word32) (s : State) : (stampKeypad w m s).kBuf = s.kBuf := rfl
@[simp] theorem stampKeypad_lastEdgeUs (w : BitSeq) (m : Word32) (s : State) : (stampKeypad w m s).lastEdgeUs = s.lastEdgeUs := rfl
@[simp] theorem stampKeypad_intervalUs (w : BitSeq) (m : Word32) (s : State) : (stampKeypad w m s).intervalUs = s.intervalUs := rfl
@[simp] theorem stampKeypad_kPend (w : BitSeq) (m : Word32) (s : State) : (stampKeypad w m s).kPend = s.kPend := rfl
@[simp] theorem stampKeypad_pWord (w : BitSeq) (m : Word32) (s : State) : (stampKeypad w m s).pWord = s.pWord := rfl
@[simp] theorem stampKeypad_kWord (w : BitSeq) (m : Word32) (s : State) : (stampKeypad w m s).kWord = s.kWord := rfl
@[simp] theorem stampKeypad_pcmd (w : BitSeq) (m : Word32) (s : State) : (stampKeypad w m s).pcmd = s.pcmd := rfl
@[simp] theorem stampKeypad_kcmd (w : BitSeq) (m : Word32) (s : State) : (stampKeypad w m s).kcmd = s.kcmd := rfl
@[simp] theorem stampKeypad_status (w : BitSeq) (m : Word32) (s : State) : (stampKeypad w m s).status = s.status := rfl
@[simp] theorem stampKeypad_led (w : BitSeq) (m : Word32) (s : State) : (stampKeypad w m s).led = s.led := rfl
@[simp] theorem stampKeypad_prevP (w : BitSeq) (m : Word32) (s : State) : (stampKeypad w m s).prevP = s.prevP := rfl
@[simp] theorem stampKeypad_prevK (w : BitSeq) (m : Word32) (s : State) : (stampKeypad w m s).prevK = w := rfl
@[simp] theorem stampKeypad_lastActivityMs (w : BitSeq) (m : Word32) (s : State) : (stampKeypad w m s).lastActivityMs = m := rfl
@[simp] theorem stampKeypad_lastStatusMs (w : BitSeq) (m : Word32) (s : State) : (stampKeypad w m s).lastStatusMs = s.lastStatusMs := rfl
@[simp] theorem stampKeypad_ckResult (w : BitSeq) (m : Word32) (s : State) : (stampKeypad w m s).ckResult = s.ckResult := rfl
@[simp] theorem stampKeypad_clkQ (w : BitSeq) (m : Word32) (s : State) : (stampKeypad w m s).clkQ = s.clkQ := rfl
@[simp] theorem stampKeypad_clkSync (w : BitSeq) (m : Word32) (s : State) : (stampKeypad w m s).clkSync = s.clkSync := rfl
@[simp] theorem stampKeypad_dataSync (w : BitSeq) (m : Word32) (s : State) : (stampKeypad w m s).dataSync = s.dataSync := rfl
@[simp] theorem stampKeypad_inputs (w : BitSeq) (m : Word32) (s : State) : (stampKeypad w m s).inputs = s.inputs := rfl

@[simp] theorem writeStatus_cfg (s : State) : (writeStatus s).cfg = s.cfg := rfl
@[simp] theorem writeStatus_pBuf (s : State) : (writeStatus s).pBuf = s.pBuf := rfl
@[simp] theorem writeStatus_kBuf (s : State) : (writeStatus s).kBuf = s.kBuf := rfl
@[simp] theorem writeStatus_lastEdgeUs (s : State) : (writeStatus s).lastEdgeUs = s.lastEdgeUs := rfl
@[simp] theorem writeStatus_intervalUs (s : State) : (writeStatus s).intervalUs = s.intervalUs := rfl
@[simp] theorem writeStatus_kPend (s : State) : (writeStatus s).kPend = s.kPend := rfl
@[simp] theorem writeStatus_pWord (s : State) : (writeStatus s).pWord = s.pWord := rfl
@[simp] theorem writeStatus_kWord (s : State) : (writeStatus s).kWord = s.kWord := rfl
@[simp] theorem writeStatus_pcmd (s : State) : (writeStatus s).pcmd = s.pcmd := rfl
@[simp] theorem writeStatus_kcmd (s : State) : (writeStatus s).kcmd = s.kcmd := rfl
@[simp] theorem writeStatus_status (s : State) : (writeStatus s).status = statusOf s.kcmd s.pcmd := rfl
@[simp] theorem writeStatus_led (s : State) : (writeStatus s).led = s.led := rfl
@[simp] theorem writeStatus_prevP (s : State) : (writeStatus s).prevP = s.prevP := rfl
@[simp] theorem writeStatus_prevK (s : State) : (writeStatus s).prevK = s.prevK := rfl
@[simp] theorem writeStatus_lastActivityMs (s : State) : (writeStatus s).lastActivityMs = s.lastActivityMs := rfl
@[simp] theorem writeStatus_lastStatusMs (s : State) : (writeStatus s).lastStatusMs = s.lastStatusMs := rfl
@[simp] theorem writeStatus_ckResult (s : State) : (writeStatus s).ckResult = s.ckResult := rfl
@[simp] theorem writeStatus_clkQ (s : State) : (writeStatus s).clkQ = s.clkQ := rfl
@[simp] theorem writeStatus_clkSync (s : State) : (writeStatus s).clkSync = s.clkSync := rfl
@[simp] theorem writeStatus_dataSync (s : State) : (writeStatus s).dataSync = s.dataSync := rfl
@[simp] theorem writeStatus_inputs (s : State) : (writeStatus s).inputs = s.inputs := rfl

@[simp] theorem noWord_cfg (s : State) : (noWord s).cfg = s.cfg := rfl
@[simp] theorem noWord_pBuf (s : State) : (noWord s).pBuf = s.pBuf := rfl
@[simp] theorem noWord_kBuf (s : State) : (noWord s).kBuf = s.kBuf := rfl
@[simp] theorem noWord_lastEdgeUs (s : State) : (noWord s).lastEdgeUs = s.lastEdgeUs := rfl
@[simp] theorem noWord_intervalUs (s : State) : (noWord s).intervalUs = s.intervalUs := rfl
@[simp] theorem noWord_kPend (s : State) : (noWord s).kPend = s.kPend := rfl
@[simp] theorem noWord_pWord (s : State) : (noWord s).pWord = s.pWord := rfl
@[simp] theorem noWord_kWord (s : State) : (noWord s).kWord = s.kWord := rfl
@[simp] theorem noWord_pcmd (s : State) : (noWord s).pcmd = s.pcmd := rfl
@[simp] theorem noWord_kcmd (s : State) : (noWord s).kcmd = s.kcmd := rfl
@[simp] theorem noWord_status (s : State) : (noWord s).status = 0 := rfl
@[simp] theorem noWord_led (s : State) : (noWord s).led = s.led := rfl
@[simp] theorem noWord_prevP (s : State) : (noWord s).prevP = s.prevP := rfl
@[simp] theorem noWord_prevK (s : State) : (noWord s).prevK = s.prevK := rfl
@[simp] theorem noWord_lastActivityMs (s : State) : (noWord s).lastActivityMs = s.lastActivityMs := rfl
@[simp] theorem noWord_lastStatusMs (s : State) : (noWord s).lastStatusMs = s.lastStatusMs := rfl
@[simp] theorem noWord_ckResult (s : State) : (noWord s).ckResult = s.ckResult := rfl
@[simp] theorem noWord_clkQ (s : State) : (noWord s).clkQ = s.clkQ := rfl
@[simp] theorem noWord_clkSync (s : State) : (noWord s).clkSync = s.clkSync := rfl
@[simp] theorem noWord_dataSync (s : State) : (noWord s).dataSync = s.dataSync := rfl
@[simp] theorem noWord_inputs (s : State) : (noWord s).inputs = s.inputs := rfl

@[simp] theorem writeCk_cfg (r : CkOutcome) (s : State) : (writeCk r s).cfg = s.cfg := rfl
@[simp] theorem writeCk_pBuf (r : CkOutcome) (s : State) : (writeCk r s).pBuf = s.pBuf := rfl
@[simp] theorem writeCk_kBuf (r : CkOutcome) (s : State) : (writeCk r s).kBuf = s.kBuf := rfl
@[simp] theorem writeCk_lastEdgeUs (r : CkOutcome) (s : State) : (writeCk r s).lastEdgeUs = s.lastEdgeUs := rfl
@[simp] theorem writeCk_intervalUs (r : CkOutcome) (s : State) : (writeCk r s).intervalUs = s.intervalUs := rfl
@[simp] theorem writeCk_kPend (r : CkOutcome) (s : State) : (writeCk r s).kPend = s.kPend := rfl
@[simp] theorem writeCk_pWord (r : CkOutcome) (s : State) : (writeCk r s).pWord = s.pWord := rfl
@[simp] theorem writeCk_kWord (r : CkOutcome) (s : State) : (writeCk r s).kWord = s.kWord := rfl
@[simp] theorem writeCk_pcmd (r : CkOutcome) (s : State) : (writeCk r s).pcmd = s.pcmd := rfl
@[simp] theorem writeCk_kcmd (r : CkOutcome) (s : State) : (writeCk r s).kcmd = s.kcmd := rfl
@[simp] theorem writeCk_status (r : CkOutcome) (s : State) : (writeCk r s).status = s.status := rfl
@[simp] theorem writeCk_led (r : CkOutcome) (s : State) : (writeCk r s).led = s.led := rfl
@[simp] theorem writeCk_prevP (r : CkOutcome) (s : State) : (writeCk r s).prevP = s.prevP := rfl
@[simp] theorem writeCk_prevK (r : CkOutcome) (s : State) : (writeCk r s).prevK = s.prevK := rfl
@[simp] theorem writeCk_lastActivityMs (r : CkOutcome) (s : State) : (writeCk r s).lastActivityMs = s.lastActivityMs := rfl
@[simp] theorem writeCk_lastStatusMs (r : CkOutcome) (s : State) : (writeCk r s).lastStatusMs = s.lastStatusMs := rfl
@[simp] theorem writeCk_ckResult (r : CkOutcome) (s : State) : (writeCk r s).ckResult = encodeCk r := rfl
@[simp] theorem writeCk_clkQ (r : CkOutcome) (s : State) : (writeCk r s).clkQ = s.clkQ := rfl
@[simp] theorem writeCk_clkSync (r : CkOutcome) (s : State) : (writeCk r s).clkSync = s.clkSync := rfl
@[simp] theorem writeCk_dataSync (r : CkOutcome) (s : State) : (writeCk r s).dataSync = s.dataSync := rfl
@[simp] theorem writeCk_inputs (r : CkOutcome) (s : State) : (writeCk r s).inputs = s.inputs := rfl

@[simp] theorem resetRegisters_cfg (s : State) : (resetRegisters s).cfg = s.cfg := rfl
@[simp] theorem resetRegisters_pBuf (s : State) : (resetRegisters s).pBuf = [] := rfl
@[simp] theorem resetRegisters_kBuf (s : State) : (resetRegisters s).kBuf = [] := rfl
@[simp] theorem resetRegisters_lastEdgeUs (s : State) : (resetRegisters s).lastEdgeUs = 0 := rfl
@[simp] theorem resetRegisters_intervalUs (s : State) : (resetRegisters s).intervalUs = 0 := rfl
@[simp] theorem resetRegisters_kPend (s : State) : (resetRegisters s).kPend = [] := rfl
@[simp] theorem resetRegisters_pWord (s : State) : (resetRegisters s).pWord = [] := rfl
@[simp] theorem resetRegisters_kWord (s : State) : (resetRegisters s).kWord = [] := rfl
@[simp] theorem resetRegisters_pcmd (s : State) : (resetRegisters s).pcmd = 0 := rfl
@[simp] theorem resetRegisters_kcmd (s : State) : (resetRegisters s).kcmd = 0 := rfl
@[simp] theorem resetRegisters_status (s : State) : (resetRegisters s).status = 0 := rfl
@[simp] theorem resetRegisters_led (s : State) : (resetRegisters s).led = false := rfl
@[simp] theorem resetRegisters_prevP (s : State) : (resetRegisters s).prevP = [] := rfl
@[simp] theorem resetRegisters_prevK (s : State) : (resetRegisters s).prevK = [] := rfl
@[simp] theorem resetRegisters_lastActivityMs (s : State) : (resetRegisters s).lastActivityMs = 0 := rfl
@[simp] theorem resetRegisters_lastStatusMs (s : State) : (resetRegisters s).lastStatusMs = 0 := rfl
@[simp] theorem resetRegisters_ckResult (s : State) : (resetRegisters s).ckResult = 0 := rfl
@[simp] theorem resetRegisters_clkQ (s : State) : (resetRegisters s).clkQ = s.clkQ := rfl
@[simp] theorem resetRegisters_clkSync (s : State) : (resetRegisters s).clkSync = s.clkSync := rfl
@[simp] theorem resetRegisters_dataSync (s : State) : (resetRegisters s).dataSync = s.dataSync := rfl
@[simp] theorem resetRegisters_inputs (s : State) : (resetRegisters s).inputs = s.inputs := rfl

@[simp] theorem sampleLines_cfg (p : Pins) (s : State) : (sampleLines p s).cfg = s.cfg := rfl
@[simp] theorem sampleLines_pBuf (p : Pins) (s : State) : (sampleLines p s).pBuf = s.pBuf := rfl
@[simp] theorem sampleLines_kBuf (p : Pins) (s : State) : (sampleLines p s).kBuf = s.kBuf := rfl
@[simp] theorem sampleLines_lastEdgeUs (p : Pins) (s : State) : (sampleLines p s).lastEdgeUs = s.lastEdgeUs := rfl
@[simp] theorem sampleLines_intervalUs (p : Pins) (s : State) : (sampleLines p s).intervalUs = s.intervalUs := rfl
@[simp] theorem sampleLines_kPend (p : Pins) (s : State) : (sampleLines p s).kPend = s.kPend := rfl
@[simp] theorem sampleLines_pWord (p : Pins) (s : State) : (sampleLines p s).pWord = s.pWord := rfl
@[simp] theorem sampleLines_kWord (p : Pins) (s : State) : (sampleLines p s).kWord = s.kWord := rfl
@[simp] theorem sampleLines_pcmd (p : Pins) (s : State) : (sampleLines p s).pcmd = s.pcmd := rfl
@[simp] theorem sampleLines_kcmd (p : Pins) (s : State) : (sampleLines p s).kcmd = s.kcmd := rfl
@[simp] theorem sampleLines_status (p : Pins) (s : State) : (sampleLines p s).status = s.status := rfl
@[simp] theorem sampleLines_led (p : Pins) (s : State) : (sampleLines p s).led = s.led := rfl
@[simp] theorem sampleLines_prevP (p : Pins) (s : State) : (sampleLines p s).prevP = s.prevP := rfl
@[simp] theorem sampleLines_prevK (p : Pins) (s : State) : (sampleLines p s).prevK = s.prevK := rfl
@[simp] theorem sampleLines_lastActivityMs (p : Pins) (s : State) : (sampleLines p s).lastActivityMs = s.lastActivityMs := rfl
@[simp] theorem sampleLines_lastStatusMs (p : Pins) (s : State) : (sampleLines p s).lastStatusMs = s.lastStatusMs := rfl
@[simp] theorem sampleLines_ckResult (p : Pins) (s : State) : (sampleLines p s).ckResult = s.ckResult := rfl
@[simp] theorem sampleLines_clkQ (p : Pins) (s : State) : (sampleLines p s).clkQ = (shiftSync p.kbClk s.clkSync).1 := rfl
@[simp] theorem sampleLines_clkSync (p : Pins) (s : State) : (sampleLines p s).clkSync = (shiftSync p.kbClk s.clkSync).2 := rfl
@[simp] theorem sampleLines_dataSync (p : Pins) (s : State) : (sampleLines p s).dataSync = (shiftSync p.kbData s.dataSync).2 := rfl
@[simp] theorem sampleLines_inputs (p : Pins) (s : State) : (sampleLines p s).inputs = s.inputs := rfl

end Sys2Proof.Machine
end

