-- ==== Sys2Proof/Laws/Ops.lean ====
section
/-! SUPPORT. One lemma per shared operation that says once everything it can do. -/

namespace Sys2Proof.Machine

/-! ## Appends -/

theorem append_of_lt {cap : Nat} {w : BitSeq} (d : Bool) (h : w.length < cap) : append cap w d = w ++ [d] := by
  simp [append, h]

theorem append_of_ge {cap : Nat} {w : BitSeq} (d : Bool) (h : cap ≤ w.length) : append cap w d = w := by
  simp [append, Nat.not_lt.mpr h]

/-- An append is a cut of the longer sequence at the capacity. -/
theorem append_eq_take {cap : Nat} {w : BitSeq} (d : Bool) (h : w.length ≤ cap) :
    append cap w d = (w ++ [d]).take cap := by
  by_cases hlt : w.length < cap
  · rw [append_of_lt d hlt, List.take_of_length_le (by simp; omega)]
  · have : w.length = cap := by omega
    rw [append_of_ge d (by omega), ← this, List.take_left]

theorem append_length_le {cap : Nat} {w : BitSeq} (d : Bool) (h : w.length ≤ cap) :
    (append cap w d).length ≤ cap := by
  rw [append_eq_take d h]; simp

/-! ## Thresholds -/

/-- `TH_K` is computed without a borrow (R8). -/
theorem thK_toNat (c : Config) : (thK c).toNat = c.wbiUs - c.guardUs := by
  have := c.sum_lt
  simp only [thK, BitVec.toNat_ofNat]
  omega

/-- `TH_P` is computed without a carry out (R8). -/
theorem thP_toNat (c : Config) : (thP c).toNat = c.wbiUs + c.guardUs := by
  have := c.sum_lt
  simp only [thP, BitVec.toNat_ofNat]
  omega

theorem isBoundary_iff (c : Config) (iv : Word32) :
    isBoundary c iv = true ↔ c.wbiUs - c.guardUs < iv.toNat := by
  simp [isBoundary, BitVec.lt_def, thK_toNat]

theorem framingReady_iff (s : State) :
    framingReady s = true ↔ s.cfg.wbiUs + s.cfg.guardUs < s.intervalUs.toNat ∧ 8 ≤ s.pBuf.length := by
  rw [framingReady, Bool.and_eq_true, decide_eq_true_iff, decide_eq_true_iff, BitVec.lt_def, thP_toNat, minPanelBits]

theorem ledLevel_eq (m a : Word32) : ledLevel m a = decide ((m - a).toNat ≤ 500) := by
  have e : (ledTimeoutMs < sub32 m a) ↔ 500 < (m - a).toNat := by
    rw [BitVec.lt_def]; simp [ledTimeoutMs, sub32]
  by_cases h : (m - a).toNat ≤ 500
  · rw [ledLevel, if_neg (by rw [e]; omega), decide_eq_true h]
  · rw [ledLevel, if_pos (by rw [e]; omega), decide_eq_false h]

/-! ## The Sampler -/

/-- Everything `EdgeTiming` does (R131). -/
theorem edgeTiming_eq (now : Word32) (s : State) :
    edgeTiming now s =
      { s with
        intervalUs := now - s.lastEdgeUs
        lastEdgeUs := now
        kPend := if isBoundary s.cfg (now - s.lastEdgeUs) then s.kBuf else s.kPend
        kBuf := if isBoundary s.cfg (now - s.lastEdgeUs) then [] else s.kBuf } := by
  cases h : isBoundary s.cfg (now - s.lastEdgeUs) <;> simp [edgeTiming, sub32, h, handOff, take]

/-! ## Acceptance -/

theorem hasZero_iff (w : BitSeq) : hasZero w = true ↔ false ∈ w := by
  simp [hasZero]

/-- `AcceptPanel` rejects or accepts, and does nothing else (R190). -/
theorem acceptPanel_cases (w : BitSeq) (m : Word32) (s : State) :
    ((command w = 0 ∨ w = s.prevP) ∧ acceptPanel w m s = (0, s)) ∨
    (command w ≠ 0 ∧ w ≠ s.prevP ∧ acceptPanel w m s = (command w, stampPanel w m s)) := by
  unfold acceptPanel
  by_cases h0 : command w = 0
  · exact .inl ⟨.inl h0, by simp [h0]⟩
  · by_cases h1 : w = s.prevP
    · exact .inl ⟨.inr h1, by rw [if_neg h0, if_pos h1]⟩
    · exact .inr ⟨h0, h1, by rw [if_neg h0, if_neg h1]⟩

/-- `AcceptKeypad` rejects or accepts, and does nothing else (R193). -/
theorem acceptKeypad_cases (w : BitSeq) (m : Word32) (s : State) :
    (false ∉ w ∧ acceptKeypad w m s = (0, s)) ∨
    (false ∈ w ∧ acceptKeypad w m s = (command w, stampKeypad w m s)) := by
  unfold acceptKeypad
  by_cases h : false ∈ w
  · exact .inr ⟨h, by rw [if_pos ((hasZero_iff w).mpr h)]⟩
  · exact .inl ⟨h, by rw [if_neg (by rw [hasZero_iff]; exact h)]⟩

/-- Everything the panel half of the dispatch does. -/
theorem judgePanel_cases (m : Word32) (s : State) :
    ((command s.pWord = 0 ∨ s.pWord = s.prevP) ∧ judgePanel m s = { s with pcmd := 0 }) ∨
    (command s.pWord ≠ 0 ∧ s.pWord ≠ s.prevP ∧
      judgePanel m s = { stampPanel s.pWord m s with pcmd := command s.pWord }) := by
  rcases acceptPanel_cases s.pWord m s with ⟨h, e⟩ | ⟨h0, h1, e⟩
  · exact .inl ⟨h, by simp [judgePanel, e]⟩
  · exact .inr ⟨h0, h1, by simp [judgePanel, e]⟩

/-- Everything the keypad half of the dispatch does. -/
theorem judgeKeypad_cases (m : Word32) (s : State) :
    (false ∉ s.kWord ∧ judgeKeypad m s = { s with kcmd := 0 }) ∨
    (false ∈ s.kWord ∧ judgeKeypad m s = { stampKeypad s.kWord m s with kcmd := command s.kWord }) := by
  rcases acceptKeypad_cases s.kWord m s with ⟨h, e⟩ | ⟨h, e⟩
  · exact .inl ⟨h, by simp [judgeKeypad, e]⟩
  · exact .inr ⟨h, by simp [judgeKeypad, e]⟩

/-! ## POLL -/

/-- The state before the framing test of a POLL: codes cleared and the indicator driven. -/
theorem pollOnce_eq (m : Word32) (s : State) :
    pollOnce m s = if framingReady s then frameWords m (driveLed m (clearCodes s)) else noWord (driveLed m (clearCodes s)) := by
  rfl

theorem pollOnce_of_ready {m : Word32} {s : State} (h : framingReady s = true) :
    pollOnce m s = frameWords m (driveLed m (clearCodes s)) := by
  rw [pollOnce_eq, if_pos h]

theorem pollOnce_of_not_ready {m : Word32} {s : State} (h : framingReady s = false) :
    pollOnce m s = noWord (driveLed m (clearCodes s)) := by
  rw [pollOnce_eq, h]; rfl

/-! ## Events and ticks -/

/-- The state each operation leaves. -/
def after (i : Instr) (s : State) : State :=
  match i with
  | .nop => s
  | .edgeR d t => appendPanel d (edgeTiming t s)
  | .edgeF d t => appendKeypad d (edgeTiming t s)
  | .poll _ m => pollOnce m s
  | .cksumP => writeCk (checksum s.pWord panelStart) s
  | .cksumK => writeCk (checksum s.kWord keypadStart) s
  | .reset => resetRegisters s

@[simp] theorem after_nop (s : State) : after .nop s = s := rfl
@[simp] theorem after_edgeR (d : Bool) (t : Word32) (s : State) : after (.edgeR d t) s = appendPanel d (edgeTiming t s) := rfl
@[simp] theorem after_edgeF (d : Bool) (t : Word32) (s : State) : after (.edgeF d t) s = appendKeypad d (edgeTiming t s) := rfl
@[simp] theorem after_poll (u m : Word32) (s : State) : after (.poll u m) s = pollOnce m s := rfl
@[simp] theorem after_cksumP (s : State) : after .cksumP s = writeCk (checksum s.pWord panelStart) s := rfl
@[simp] theorem after_cksumK (s : State) : after .cksumK s = writeCk (checksum s.kWord keypadStart) s := rfl
@[simp] theorem after_reset (s : State) : after .reset s = resetRegisters s := rfl

/-- Each meaning computes the state named above. -/
theorem exec_eq (i : Instr) (s : State) : exec i s = .next (after i s) := by
  cases i <;> rfl

theorem applyEvents_nil (s : State) : applyEvents [] s = .next s := rfl

/-- A first event that answers `t` hands `t` to the rest. -/
theorem applyEvents_cons {i : Instr} {is : List Instr} {s t : State} (h : exec i s = .next t) :
    applyEvents (i :: is) s = applyEvents is t := by
  simp [applyEvents, h]

theorem applyEvents_append {is js : List Instr} {s t : State} (h : applyEvents is s = .next t) :
    applyEvents (is ++ js) s = applyEvents js t := by
  induction is generalizing s with
  | nil => cases h; rfl
  | cons i is ih =>
    have e := exec_eq i s
    rw [applyEvents_cons e] at h
    rw [List.cons_append, applyEvents_cons e]
    exact ih h

/-- A chain of flip-flops keeps its length. -/
@[simp] theorem shiftSync_length (x : Bool) (q : List Bool) : (shiftSync x q).2.length = q.length := by
  induction q generalizing x with
  | nil => rfl
  | cons y q ih => simp [shiftSync, ih]

end Sys2Proof.Machine
end

