-- ==== Sys2Proof/Laws/Reads.lean ====
section
/-! SUPPORT. Reads of a bit sequence: bounds, zero fill and slices. -/

namespace Sys2Proof.Machine

theorem bitAt_of_ge {w : BitSeq} {i : Nat} (h : w.length ≤ i) : bitAt w i = false := by
  exact List.getD_eq_default _ _ h

theorem bitAt_append_left {w v : BitSeq} {i : Nat} (h : i < w.length) : bitAt (w ++ v) i = bitAt w i := by
  exact List.getD_append _ _ _ _ h

theorem bitAt_append_right {w v : BitSeq} {i : Nat} (h : w.length ≤ i) :
    bitAt (w ++ v) i = bitAt v (i - w.length) := by
  exact List.getD_append_right _ _ _ _ h

/-- Two sequences that agree on a slice have the same value there. -/
theorem uint_congr {w v : BitSeq} {a b n : Nat} (h : ∀ j < n, bitAt w (a + j) = bitAt v (b + j)) :
    uint w a n = uint v b n := by
  induction n with
  | zero => rfl
  | succ n ih => rw [uint, uint, ih fun j hj => h j (by omega), h n (by omega)]

theorem uint_lt (w : BitSeq) (off n : Nat) : uint w off n < 2 ^ n := by
  induction n with
  | zero => simp [uint]
  | succ n ih =>
    have : (bitAt w (off + n)).toNat ≤ 1 := Bool.toNat_le _
    rw [uint, Nat.pow_succ]; omega

theorem byteAt_toNat (w : BitSeq) (off : Nat) : (byteAt w off).toNat = uint w off 8 := by
  have := uint_lt w off 8
  simp only [byteAt, BitVec.toNat_ofNat]
  exact Nat.mod_eq_of_lt (by simpa using this)

theorem byteAt_congr {w v : BitSeq} {a b : Nat} (h : ∀ j < 8, bitAt w (a + j) = bitAt v (b + j)) :
    byteAt w a = byteAt v b := by
  rw [byteAt, byteAt, uint_congr h]

end Sys2Proof.Machine
end

