-- ==== Sys2Proof/Laws/Downstream.lean ====
section
/-! SUPPORT. What the informative decoders and views of 49_downstream_decoders.md can answer. -/

namespace Sys2Proof.Machine

/-- The groups of a view are the Word's bits in order, none lost. -/
theorem chunks8_flatten (n : Nat) (w : BitSeq) (h : w.length ≤ n) : (chunks8 n w).flatten = w := by
  induction n generalizing w with
  | zero => simp_all [chunks8]
  | succ n ih =>
    cases w with
    | nil => rfl
    | cons b w =>
      simp only [chunks8, List.flatten_cons]
      rw [ih _ (by simp at h ⊢; omega), List.take_append_drop]

theorem keypadGroups_flatten (w : BitSeq) : (keypadGroups w).flatten = w := chunks8_flatten _ _ le_rfl

/-- A keypad Word has a message exactly when it has a 0 bit. -/
theorem keypadMessage_isSome (t : KeypadTable) (w : BitSeq) : (keypadMessage t w).isSome = hasZero w := by
  unfold keypadMessage; split <;> simp_all

/-- A panel Word has a message exactly when its judgement returned a code. -/
theorem panelMessage_isSome (pf : Nat) (c : Byte) (w : BitSeq) : (panelMessage pf c w).isSome = (c != 0) := by
  unfold panelMessage; split <;> simp_all

theorem mem_alarmLabels (t : KeypadTable) (c : Byte) (a : Alarm) :
    a ∈ alarmLabels t c ↔
      (a = .fire ∧ t.fireCmd = c) ∨ (a = .auxiliary ∧ t.auxCmd = c) ∨ (a = .panic ∧ t.panicCmd = c) := by
  simp only [alarmLabels, List.mem_map, List.mem_filter, beq_iff_eq]
  constructor
  · rintro ⟨x, ⟨hx, hc⟩, rfl⟩
    simp only [List.mem_cons, List.not_mem_nil, or_false] at hx
    rcases hx with rfl | rfl | rfl <;> simp_all
  · rintro (⟨rfl, h⟩ | ⟨rfl, h⟩ | ⟨rfl, h⟩)
    · exact ⟨(t.fireCmd, .fire), ⟨by simp, h⟩, rfl⟩
    · exact ⟨(t.auxCmd, .auxiliary), ⟨by simp, h⟩, rfl⟩
    · exact ⟨(t.panicCmd, .panic), ⟨by simp, h⟩, rfl⟩

@[simp] theorem okMarker_eq_true (r : CkOutcome) : okMarker r = true ↔ r = .valid := by cases r <;> simp [okMarker]

/-- The marker as the output port `ck_result` tells it. -/
theorem okMarker_iff_port (r : CkOutcome) : okMarker r = true ↔ encodeCk r = 0b11#2 := by cases r <;> decide

end Sys2Proof.Machine
end

