-- ==== Sys2Proof/Laws/Memory.lean ====
section
/-! SUPPORT. The memory operations keep the form of the block's memory (R64), and reset has it. -/

namespace Sys2Proof.Machine

theorem Memory.wf_iff (s : State) :
    Memory.wf s = true ↔
      s.pBuf.length ≤ s.cfg.maxBits ∧ s.kBuf.length ≤ s.cfg.maxBits ∧ s.kPend.length ≤ s.cfg.maxBits ∧
      s.pWord.length ≤ s.cfg.maxBits ∧ s.kWord.length ≤ s.cfg.maxBits ∧ s.prevP.length ≤ s.cfg.maxBits ∧
      s.prevK.length ≤ s.cfg.maxBits := by
  simp [Memory.wf, fits, and_assoc]

theorem Memory.wf_resetWith (c : Config) : Memory.wf (State.resetWith c) = true := by
  simp [Memory.wf_iff, State.resetWith]

theorem Memory.wf_reset : Memory.wf State.reset = true := Memory.wf_resetWith _

theorem Memory.wf_edgeTiming {s : State} (now : Word32) (h : Memory.wf s = true) :
    Memory.wf (edgeTiming now s) = true := by
  rw [Memory.wf_iff] at *
  rw [edgeTiming_eq]
  by_cases hb : isBoundary s.cfg (now - s.lastEdgeUs) = true
  · simp only [hb, if_true]; simp only [List.length_nil]; omega
  · simp only [hb]; simpa using h

theorem Memory.wf_appendPanel {s : State} (d : Bool) (h : Memory.wf s = true) :
    Memory.wf (appendPanel d s) = true := by
  rw [Memory.wf_iff] at *
  exact ⟨append_length_le d h.1, h.2⟩

theorem Memory.wf_appendKeypad {s : State} (d : Bool) (h : Memory.wf s = true) :
    Memory.wf (appendKeypad d s) = true := by
  rw [Memory.wf_iff] at *
  exact ⟨h.1, append_length_le d h.2.1, h.2.2⟩

theorem Memory.wf_takePanel {s : State} (h : Memory.wf s = true) : Memory.wf (takePanel s) = true := by
  rw [Memory.wf_iff] at *
  simp only [takePanel_pBuf, takePanel_cfg, takePanel_kBuf, takePanel_kPend, takePanel_pWord, takePanel_kWord,
    takePanel_prevP, takePanel_prevK, List.length_nil]
  omega

theorem Memory.wf_takeKeypad {s : State} (h : Memory.wf s = true) : Memory.wf (takeKeypad s) = true := by
  rw [Memory.wf_iff] at *
  simp only [takeKeypad_pBuf, takeKeypad_cfg, takeKeypad_kBuf, takeKeypad_kPend, takeKeypad_pWord, takeKeypad_kWord,
    takeKeypad_prevP, takeKeypad_prevK, List.length_nil]
  omega

theorem Memory.wf_judgePanel {s : State} (m : Word32) (h : Memory.wf s = true) :
    Memory.wf (judgePanel m s) = true := by
  rw [Memory.wf_iff] at *
  rcases judgePanel_cases m s with ⟨_, e⟩ | ⟨_, _, e⟩ <;> rw [e]
  · exact h
  · simp only [stampPanel_cfg, stampPanel_pBuf, stampPanel_kBuf, stampPanel_kPend, stampPanel_pWord,
      stampPanel_kWord, stampPanel_prevP, stampPanel_prevK]
    omega

theorem Memory.wf_judgeKeypad {s : State} (m : Word32) (h : Memory.wf s = true) :
    Memory.wf (judgeKeypad m s) = true := by
  rw [Memory.wf_iff] at *
  rcases judgeKeypad_cases m s with ⟨_, e⟩ | ⟨_, e⟩ <;> rw [e]
  · exact h
  · simp only [stampKeypad_cfg, stampKeypad_pBuf, stampKeypad_kBuf, stampKeypad_kPend, stampKeypad_pWord,
      stampKeypad_kWord, stampKeypad_prevP, stampKeypad_prevK]
    omega

theorem Memory.wf_resetRegisters (s : State) : Memory.wf (resetRegisters s) = true := by
  simp [Memory.wf_iff]

end Sys2Proof.Machine
end

