-- ==== Sys2Proof/Laws/PerInstr.lean ====
section
/-! SUPPORT. Facts about each instruction as syntax, one lemma per constructor. -/

namespace Sys2Proof.Laws

/-- The fields written for an operation are ones that spell it (R110, R111, R114). -/
def FieldsSpellIt.Statement (i : Instr) : Prop := i.fields.wf = true ∧ i.fields.decode = .ok i

theorem FieldsSpellIt.nop : FieldsSpellIt.Statement .nop := ⟨rfl, rfl⟩
theorem FieldsSpellIt.edgeR (d : Bool) (tUs : Word32) : FieldsSpellIt.Statement (.edgeR d tUs) := by
  cases d <;> exact ⟨rfl, rfl⟩
theorem FieldsSpellIt.edgeF (d : Bool) (tUs : Word32) : FieldsSpellIt.Statement (.edgeF d tUs) := by
  cases d <;> exact ⟨rfl, rfl⟩
theorem FieldsSpellIt.poll (tUs tMs : Word32) : FieldsSpellIt.Statement (.poll tUs tMs) := ⟨rfl, rfl⟩
theorem FieldsSpellIt.cksumP : FieldsSpellIt.Statement .cksumP := ⟨rfl, rfl⟩
theorem FieldsSpellIt.cksumK : FieldsSpellIt.Statement .cksumK := ⟨rfl, rfl⟩
theorem FieldsSpellIt.reset : FieldsSpellIt.Statement .reset := ⟨rfl, rfl⟩

end Sys2Proof.Laws
end

