-- ==== Sys2Proof/Tests/Slice0.lean ====
section
/-! SUPPORT. Tests: ill-formed terms each check refuses, words written out from the encoding tables, one step per instruction with values from 95_test_vectors.md, and for every statement with hypotheses a state that meets them. -/

namespace Sys2Proof.Tests

open Sys2Proof.Machine

/-- A bit sequence from its digits, index 0 first. -/
def bs (l : List Nat) : BitSeq := l.map fun n => n == 1

/-- The reset state in the spec's test configuration TC (95_test_vectors.md: `TH_K` 9000, `TH_P` 11000). -/
def tc : State := State.resetWith Config.tc

/-- TC with `MAX_BITS = 8`. -/
def tc8 : State := State.resetWith { maxBits := 8 }

/-- TC after an edge at 1000. -/
def at1000 : State := { tc with lastEdgeUs := 1000 }

/-- The next state of an outcome, if it is one. -/
def next? (o : Host.Outcome State Fault Refusal) : Option State :=
  match o with
  | .next t => some t
  | .fault _ => none
  | .refused _ => none

/-- Whether the decoder refuses a word, and how. -/
def errorOf (w : EventWord) : Option EventError :=
  match decode w with
  | .ok _ => none
  | .error e => some e

/-- The operation the decoder reads. -/
def opOf (w : EventWord) : Option Instr :=
  match decode w with
  | .ok i => some i
  | .error _ => none

/-- Pins with everything low but the lines. -/
def quiet (c d : Bool) : Pins := ⟨c, d, false, false, false, false, false, 0, 0⟩

/-! ## Well-formedness: every check refuses something -/

/-- R7, each side of `MAX_BITS >= 8`. -/
theorem test_capacity_too_small :
    (Params.mk 7 10000 1000 0).capacityOk = false ∧ (Params.mk 8 10000 1000 0).legal = true := by decide

/-- R7, each side of `GUARD_US <= WBI_US`. -/
theorem test_guard_too_large :
    (Params.mk 64 1000 1001 0).guardOk = false ∧ (Params.mk 64 1000 1000 0).legal = true := by decide

/-- R7, each side of `WBI_US + GUARD_US < 2^32`. -/
theorem test_sum_too_large :
    (Params.mk 64 4294967295 1 0).sumOk = false ∧ (Params.mk 64 4294967294 1 0).legal = true := by decide

theorem test_illegal_parameters_build_nothing :
    (Config.ofParams ⟨7, 10000, 1000, 0⟩).isNone = true ∧ (Config.ofParams ⟨8, 10000, 1000, 0⟩).isSome = true := by
  decide

/-- R7: 49 bits when the decoders are attached. -/
theorem test_decoders_need_49 :
    ({ maxBits := 48 } : Config).fitsDecoders = false ∧ ({ maxBits := 49 } : Config).fitsDecoders = true := by decide

theorem test_reserved_op_refused : (EventFields.mk 0b110#3 false 0#4 0#32 0#32).opOk = false := by decide

theorem test_nonzero_z_refused : (EventFields.mk 0b011#3 false 1#4 0#32 0#32).zOk = false := by decide

theorem test_stray_d_refused : (EventFields.mk 0b011#3 true 0#4 0#32 0#32).dOk = false := by decide

theorem test_time_too_large : (TraceLine.rise true (2 ^ 32)).wf = false ∧ (TraceLine.rise true (2 ^ 32 - 1)).wf = true := by
  decide

theorem test_unequal_word_refused : (TraceLine.word [true, false] [true] 5).wf = false := by decide

/-! ## Decoding: the words of 95_test_vectors.md section 2.6 -/

theorem test_decode_rise : decodeTableWord 72 0x300000000000004E20 = some (.edgeR true 20000#32) := by decide

theorem test_decode_rise0 : decodeTableWord 72 0x200000000000005014 = some (.edgeR false 20500#32) := by decide

theorem test_decode_fall : decodeTableWord 72 0x500000000000004E20 = some (.edgeF true 20000#32) := by decide

theorem test_decode_fall0 : decodeTableWord 72 0x400000000000004E20 = some (.edgeF false 20000#32) := by decide

theorem test_decode_poll : decodeTableWord 72 0x600000003C0000E8D0 = some (.poll 59600#32 60#32) := by decide

theorem test_decode_cksumP : decodeTableWord 72 0x800000000000000000 = some .cksumP := by decide

theorem test_decode_cksumK : decodeTableWord 72 0xA00000000000000000 = some .cksumK := by decide

theorem test_decode_reset : decodeTableWord 72 0xE00000000000000000 = some .reset := by decide

theorem test_decode_nop : decodeTableWord 72 0x00FFFFFFFFFFFFFFFF = some .nop := by decide

theorem test_decode_invalid :
    [0xC00000000000000000#72, 0xD00000000000000000#72, 0x610000000000000000#72, 0x700000000000000000#72,
      0x900000000000000000#72, 0xF00000000000000000#72, 0x100000000000000000#72].map errorOf =
    [some .reservedOp, some .reservedOp, some .zNotZero, some .dNotUsed, some .dNotUsed, some .dNotUsed,
      some .dNotUsed] := by decide

/-- The encoder gives the same words back. -/
theorem test_encode_words :
    [encode (.edgeR true 20000#32), encode (.edgeF false 20000#32), encode (.poll 59600#32 60#32), encode .cksumP,
      encode .cksumK, encode .reset, encode .nop] =
    [0x300000000000004E20#72, 0x400000000000004E20#72, 0x600000003C0000E8D0#72, 0x800000000000000000#72,
      0xA00000000000000000#72, 0xE00000000000000000#72, 0x000000000000000000#72] := by decide

/-! ## One step per instruction: 95_test_vectors.md sections 2.1 to 2.5 -/

/-- S5: a rising boundary edge hands off first and appends behind the old panel bits. -/
theorem test_edgeR_boundary :
    next? (exec (.edgeR true 20000) { at1000 with kBuf := bs [1, 0], pBuf := bs [1] }) =
      some { at1000 with kPend := bs [1, 0], pBuf := bs [1, 1], intervalUs := 19000, lastEdgeUs := 20000 } := by
  decide

/-- S6: a saturated panel buffer drops the bit; the timing part runs. -/
theorem test_edgeR_saturated :
    next? (exec (.edgeR true 1500) { tc8 with lastEdgeUs := 1000, pBuf := bs [0, 0, 1, 0, 0, 1, 1, 1] }) =
      some { tc8 with pBuf := bs [0, 0, 1, 0, 0, 1, 1, 1], lastEdgeUs := 1500, intervalUs := 500 } := by decide

/-- S3 and S4: the strict comparison with `TH_K`. -/
theorem test_edgeF_threshold :
    next? (exec (.edgeF true 10000) { at1000 with kBuf := bs [1, 0] }) =
        some { tc with kBuf := bs [1, 0, 1], intervalUs := 9000, lastEdgeUs := 10000 } ∧
      next? (exec (.edgeF true 10001) { at1000 with kBuf := bs [1, 0] }) =
        some { tc with kPend := bs [1, 0], kBuf := bs [1], intervalUs := 9001, lastEdgeUs := 10001 } := by decide

/-- S9: one wrap of the clock. -/
theorem test_edgeF_wrap :
    next? (exec (.edgeF false 256) { tc with lastEdgeUs := 0xFFFFFF00, kBuf := bs [1] }) =
      some { tc with lastEdgeUs := 256, intervalUs := 512, kBuf := bs [1, 0] } := by decide

/-- F1 and F2: `TH_P` exactly is not ready, `TH_P + 1` with 8 bits is. -/
theorem test_poll_threshold :
    next? (exec (.poll 0 10) { tc with intervalUs := 11000, pBuf := bs [0, 0, 1, 0, 0, 1, 1, 1] }) =
        some { tc with intervalUs := 11000, pBuf := bs [0, 0, 1, 0, 0, 1, 1, 1], led := true } ∧
      next? (exec (.poll 0 10) { tc with intervalUs := 11001, pBuf := bs [0, 0, 1, 0, 0, 1, 1, 1] }) =
        some
          { tc with
            intervalUs := 11001, pWord := bs [0, 0, 1, 0, 0, 1, 1, 1], prevP := bs [0, 0, 1, 0, 0, 1, 1, 1]
            pcmd := 0x27, status := 1, led := true, lastActivityMs := 10 } := by decide

/-- A4: a repeated panel Word beside a short keypad Word. -/
theorem test_poll_short_keypad :
    next? (exec (.poll 0 10)
        { tc with
          intervalUs := 15000, lastActivityMs := 7, pBuf := bs [0, 0, 1, 0, 0, 1, 1, 1, 0]
          prevP := bs [0, 0, 1, 0, 0, 1, 1, 1, 0], kPend := bs [1, 0, 1] }) =
      some
        { tc with
          intervalUs := 15000, led := true, pWord := bs [0, 0, 1, 0, 0, 1, 1, 1, 0]
          prevP := bs [0, 0, 1, 0, 0, 1, 1, 1, 0], kWord := bs [1, 0, 1], prevK := bs [1, 0, 1]
          kcmd := 0xA0, status := 2, lastActivityMs := 10 } := by decide

/-- K9: the sum wraps modulo 256. -/
theorem test_cksumP_valid :
    (next? (exec .cksumP
      { tc with
        pWord := bs [1, 0, 1, 0, 0, 1, 0, 1, 0, 1, 1, 1, 1, 1, 1, 1, 1, 1, 0, 0, 0, 0, 0, 0, 0, 0, 0, 1, 0, 0, 1, 0, 0] })).map
        State.ckResult = some 0b11#2 := by decide

/-- K7: the final group is one too large. -/
theorem test_cksumP_invalid :
    (next? (exec .cksumP
      { tc with pWord := bs [0, 0, 1, 0, 0, 1, 1, 1, 0, 0, 0, 0, 0, 0, 1, 0, 1, 0, 0, 1, 0, 1, 1, 0, 1] })).map
        State.ckResult = some 0b10#2 := by decide

/-- K16: one group, equal to the header. -/
theorem test_cksumK_valid :
    (next? (exec .cksumK { tc with kWord := bs [0, 1, 1, 1, 0, 1, 1, 1, 0, 1, 1, 1, 0, 1, 1, 1] })).map State.ckResult =
      some 0b11#2 := by decide

/-- K18: no complete group. -/
theorem test_cksumK_no_group :
    (next? (exec .cksumK { tc with kWord := bs [0, 1, 1, 1, 0, 1, 1, 1, 0, 1, 1, 1, 0, 1, 1] })).map State.ckResult =
      some 0b10#2 := by decide

/-- Y1: RESET from a state in which registers are set. -/
theorem test_reset :
    next? (exec .reset { at1000 with pBuf := bs [1], prevP := bs [1], pcmd := 5, led := true, ckResult := 2 }) =
      some tc := by decide

/-- Y4: time alone does not switch the indicator off. -/
theorem test_nop : next? (exec .nop { tc with led := true, lastActivityMs := 100 }) =
    some { tc with led := true, lastActivityMs := 100 } := by decide

/-! ## Pins, traces and the informative decoders -/

/-- R119, R120: a rising line and a poll in one tick give EDGE.R before POLL. -/
theorem test_tick_order :
    tickEvents ⟨true, true, true, true, true, true, false, 5, 6⟩ true false true =
      [.edgeR true 5, .poll 5 6, .cksumK] := by decide

/-- R115: a POLL lands between a WORD's edges. -/
theorem test_expand_orders_by_time :
    expandTrace [.word [false] [true] 1000, .poll 1200 7, .cksumP] =
      [.edgeF true 1000, .poll 1200 7, .cksumP, .edgeR false 1500] := by decide

/-- Line 51 of program P1, as text. -/
theorem test_read_line :
    readLine ['F', 'A', 'L', 'L', ' ', '1', ' ', '@', '5', '9', '5', '0', '0'] = some (.fall true 59500) := by decide

/-- X2 of 95_test_vectors.md section 2.7. -/
theorem test_status_flags :
    statusFlags 29 (bs [0, 0, 0, 0, 0, 1, 0, 1, 0, 0, 0, 0, 0, 0, 0, 0, 1, 0, 0, 0, 0, 0, 0, 0, 0, 0, 0, 0, 0, 0]) =
      ⟨true, false, false, false, false, false, false⟩ := by decide

/-- X1: the clock Word. -/
theorem test_date_time :
    dateTime (bs [1, 0, 1, 0, 0, 1, 0, 1, 0, 0, 0, 1, 0, 0, 1, 1, 0, 0, 0, 1, 0, 1, 1, 0, 1, 0, 1, 0, 0, 1, 1, 1, 0,
      0, 1, 1, 1, 1, 0, 0, 0, 0, 0, 0, 0, 0, 0, 0, 0]) = ⟨2026, 11, 10, 14, 30⟩ := by decide

/-- X3: zones 0 and 2 of the Word of T6. -/
theorem test_zones :
    zones (bs [0, 0, 1, 0, 0, 1, 1, 1, 0, 0, 0, 0, 0, 0, 0, 0, 0, 0, 0, 0, 0, 0, 0, 0, 0, 0, 0, 0, 0, 0, 0, 0, 0,
      0, 0, 0, 0, 0, 0, 0, 0, 0, 0, 0, 0, 0, 1, 0, 1]) = [true, false, true, false, false, false, false, false] := by
  decide

/-- R266: the status message of that Word holds Ready and no other flag. -/
theorem test_status_message :
    panelMessage 29 0x05#8
      (bs [0, 0, 0, 0, 0, 1, 0, 1, 0, 0, 0, 0, 0, 0, 0, 0, 1, 0, 0, 0, 0, 0, 0, 0, 0, 0, 0, 0, 0, 0]) =
      some (.status [.ready]) := by decide

/-- A keypad table in which the fire code is the sentinel itself. -/
def keys : KeypadTable := ⟨0x77#8, [(0x05#8, .digit 5)], 0x77#8, 0xA0#8, 0xA1#8⟩

/-- R199 and T8: 25 ones give no message. -/
theorem test_idle_keypad_no_message : keypadMessage keys (List.replicate 25 true) = none := by decide

/-- T7 and R261: button 5, and the alarm label independently of that branch. -/
theorem test_keypad_message :
    keypadMessage keys (bs [0, 1, 1, 1, 0, 1, 1, 1, 0, 0, 0, 0, 0, 1, 0, 1]) =
      some ⟨0x77#8, some (.button (.digit 5)), [.fire]⟩ := by decide

/-- K15: the marker of a valid Word, and its last bit as a group of its own (log 15). -/
theorem test_keypad_views :
    (keypadViews keys
      (bs [0, 1, 1, 1, 0, 1, 1, 1, 0, 0, 0, 0, 0, 1, 0, 1, 0, 1, 1, 1, 1, 1, 0, 0, 1])).ok = true ∧
    ((keypadViews keys
      (bs [0, 1, 1, 1, 0, 1, 1, 1, 0, 0, 0, 0, 0, 1, 0, 1, 0, 1, 1, 1, 1, 1, 0, 0, 1])).grouped.getLast? =
      some ['1']) ∧ (panelViews 29 0 (bs [0, 0, 1, 0, 0, 1, 1, 1])).ok = false := by decide

/-! ## Witnesses: a state and operands that meet the hypotheses of each statement -/

/-- A non-operation of each kind and an operation, with `step` at each. -/
theorem witness_InvalidEventWordsAreRefused :
    (0xC00000000000000000#72).extractLsb' 69 3 = 0b110#3 ∧ (0x610000000000000000#72).extractLsb' 64 4 ≠ 0#4 ∧
      ((0x700000000000000000#72).getLsbD 68 = true ∧ (0x700000000000000000#72).extractLsb' 69 3 ≠ 0b001#3 ∧
        (0x700000000000000000#72).extractLsb' 69 3 ≠ 0b010#3) ∧
      { tc with inputs := [.event 0xC00000000000000000#72] }.inputs = .event 0xC00000000000000000#72 :: [] ∧
      ¬((0x300000000000004E20#72).extractLsb' 69 3 = 0b110#3 ∨ (0x300000000000004E20#72).extractLsb' 64 4 ≠ 0#4 ∨
        ((0x300000000000004E20#72).getLsbD 68 = true ∧ (0x300000000000004E20#72).extractLsb' 69 3 ≠ 0b001#3 ∧
          (0x300000000000004E20#72).extractLsb' 69 3 ≠ 0b010#3)) := by decide

/-- Each clause: an event word, a tick, a table word, no stimulus. -/
theorem witness_StepRunsTheNextEvent :
    { tc with inputs := [.event 0x800000000000000000#72] }.inputs = .event 0x800000000000000000#72 :: [] ∧
      opOf 0x800000000000000000#72 = some .cksumP ∧
      { tc with inputs := [.tick (quiet true true)] }.inputs = .tick (quiet true true) :: [] ∧
      decodeTableWord 72 0x300000000000004E20 = some (.edgeR true 20000#32) ∧ tc.inputs = [] := by decide

/-- Both kinds of stimulus, and none, answer a next state. -/
theorem witness_StepConsumesOneStimulus :
    next? (step { tc with inputs := [.event 0x500000000000000064#72, .tick (quiet true true)] }) =
        some { tc with kBuf := bs [1], lastEdgeUs := 100, intervalUs := 100, inputs := [.tick (quiet true true)] } ∧
      next? (step { tc with inputs := [.tick (quiet false true)] }) = some { tc with clkQ := false } ∧
      next? (step tc) = some tc := by decide

theorem witness_ParametersNeverChange :
    (next? (step { tc8 with inputs := [.event 0xE00000000000000000#72] })).map (fun t => t.cfg.maxBits) = some 8 := by
  decide

/-- The stop of the second clause occurs. -/
theorem witness_StepStopsOnlyOnInvalidWords :
    { tc with inputs := [.event 0xD00000000000000000#72] }.inputs = .event 0xD00000000000000000#72 :: [] ∧
      errorOf 0xD00000000000000000#72 = some .reservedOp ∧
      next? (step { tc with inputs := [.event 0xD00000000000000000#72] }) = none := by decide

/-- Equal readings, and the longest exact interval across a wrap. -/
theorem witness_ElapsedTimeIsModular :
    (5 ≤ 5 ∧ 5 - 5 < 2 ^ 32 ∧ (sub32 5#32 5#32).toNat = 0) ∧
      (7 ≤ 6 + 2 ^ 32 ∧ 6 + 2 ^ 32 - 7 < 2 ^ 32 ∧
        (sub32 (BitVec.ofNat 32 (6 + 2 ^ 32)) (BitVec.ofNat 32 7)).toNat = 4294967295) := by decide

/-- Each constraint broken by one, and a set at all three bounds. -/
theorem witness_LaunchRefusesIllegalParameters :
    (Params.mk 7 10 5 0).maxBits < 8 ∧ (Params.mk 8 10 11 0).wbiUs < (Params.mk 8 10 11 0).guardUs ∧
      2 ^ 32 ≤ (Params.mk 8 2147483648 2147483648 0).wbiUs + (Params.mk 8 2147483648 2147483648 0).guardUs ∧
      (8 ≤ (Params.mk 8 2147483647 2147483647 3).maxBits ∧
        (Params.mk 8 2147483647 2147483647 3).guardUs ≤ (Params.mk 8 2147483647 2147483647 3).wbiUs ∧
        (Params.mk 8 2147483647 2147483647 3).wbiUs + (Params.mk 8 2147483647 2147483647 3).guardUs < 2 ^ 32) := by
  decide

/-- Just above `TH_K`, and at it. -/
theorem witness_EdgeTimingRule :
    at1000.cfg.wbiUs - at1000.cfg.guardUs < (10001#32 - at1000.lastEdgeUs).toNat ∧
      (10000#32 - at1000.lastEdgeUs).toNat ≤ at1000.cfg.wbiUs - at1000.cfg.guardUs := by decide

/-- An edge exactly at `TH_K`: the last free place of a buffer of 8, and no place. -/
theorem witness_EdgeStoresOneBit :
    (next? (exec (.edgeR true 10000) { tc8 with lastEdgeUs := 1000, pBuf := bs [0, 0, 1, 0, 0, 1, 1] })).map State.pBuf =
        some (bs [0, 0, 1, 0, 0, 1, 1, 1]) ∧
      (next? (exec (.edgeF false 10000) { tc8 with lastEdgeUs := 1000, kBuf := bs [0, 0, 1, 0, 0, 1, 1] })).map
        State.kBuf = some (bs [0, 0, 1, 0, 0, 1, 1, 0]) ∧
      (next? (exec (.edgeF false 10000) { tc8 with lastEdgeUs := 1000, kBuf := bs [0, 0, 1, 0, 0, 1, 1, 1] })).map
        State.kBuf = some (bs [0, 0, 1, 0, 0, 1, 1, 1]) ∧
      (10000#32 - 1000#32).toNat ≤ tc8.cfg.wbiUs - tc8.cfg.guardUs := by decide

/-- T4: eight edges into an empty buffer of 8. -/
theorem witness_SaturationRule_fed :
    tc8.pBuf = [] ∧
      [(false, 1000#32), (false, 2000#32), (true, 3000#32), (false, 4000#32), (false, 5000#32), (true, 6000#32),
        (true, 7000#32), (true, 8000#32)].length = tc8.cfg.maxBits := by decide

/-- Full buffers: S7 at `TH_K`, S8 just above it, and a POLL just above `TH_P`. -/
theorem witness_SaturationRule_full :
    { tc8 with intervalUs := 11001, pBuf := bs [1, 1, 1, 1, 1, 1, 1, 1] }.pBuf.length = tc8.cfg.maxBits ∧
      tc8.cfg.wbiUs + tc8.cfg.guardUs < { tc8 with intervalUs := 11001 }.intervalUs.toNat ∧
      { tc8 with lastEdgeUs := 1000, kBuf := bs [1, 1, 1, 1, 1, 1, 1, 1] }.kBuf.length = tc8.cfg.maxBits ∧
      (10000#32 - 1000#32).toNat ≤ tc8.cfg.wbiUs - tc8.cfg.guardUs ∧
      tc8.cfg.wbiUs - tc8.cfg.guardUs < (10001#32 - 1000#32).toNat := by decide

/-- A full buffer, then edges of both kinds, a checksum and a NOP. -/
theorem witness_PanelBufferCollectsRisingBits :
    ([.edgeR true 1, .edgeF false 2, .cksumP, .nop, .cksumK, .edgeR false 3] : List Instr).all capturesOnly = true ∧
      { tc8 with pBuf := bs [1, 1, 1, 1, 1, 1, 1, 1] }.pBuf.length ≤ tc8.cfg.maxBits := by decide

/-- Edges exactly `TH_K` apart. -/
theorem witness_KeypadBufferCollectsFallingBits :
    ([.edgeF true 9000, .nop, .edgeR false 18000, .edgeF true 27000] : List Instr).all capturesOnly = true ∧
      inWord tc8.cfg tc8.lastEdgeUs [.edgeF true 9000, .nop, .edgeR false 18000, .edgeF true 27000] = true ∧
      { tc8 with kBuf := bs [1, 1, 1, 1, 1, 1, 1] }.kBuf.length ≤ tc8.cfg.maxBits := by decide

/-- F1 (`TH_P` exactly) and F3 (7 bits). -/
theorem witness_PollEffect_notReady :
    ¬(tc.cfg.wbiUs + tc.cfg.guardUs < (11000#32).toNat ∧ 8 ≤ (bs [0, 0, 1, 0, 0, 1, 1, 1]).length) ∧
      ¬(tc.cfg.wbiUs + tc.cfg.guardUs < (15000#32).toNat ∧ 8 ≤ (bs [0, 0, 1, 0, 0, 1, 1]).length) := by decide

/-- F2: `TH_P + 1` and 8 bits. -/
theorem witness_PollEffect_ready :
    tc.cfg.wbiUs + tc.cfg.guardUs < { tc with intervalUs := 11001 }.intervalUs.toNat ∧
      8 ≤ { tc with pBuf := bs [0, 0, 1, 0, 0, 1, 1, 1] }.pBuf.length := by decide

/-- F4: elapsed 500 exactly from reset, and an event that leaves the indicator. -/
theorem witness_IndicatorFollowsActivityAtPolls :
    tc.lastActivityMs = 0 ∧ (500#32).toNat ≤ 500 ∧
      (next? (exec .cksumP { tc with led := true })).map State.led = some true := by decide

/-- A POLL that frames answers a next state; an edge exactly `TH_P` after the last. -/
theorem witness_PollFramesAtMostOnce :
    (next? (exec (.poll 0 10) { tc with intervalUs := 11001, pBuf := bs [0, 0, 1, 0, 0, 1, 1, 1] })).isSome = true ∧
      (12000#32 - at1000.lastEdgeUs).toNat ≤ at1000.cfg.wbiUs + at1000.cfg.guardUs := by decide

/-- A zero command, a repeated Word, and an acceptable one. -/
theorem witness_PanelAcceptanceRule :
    command (bs [0, 0, 0, 0, 0, 0, 0, 0, 1]) = 0 ∧ bs [1] = { tc with prevP := bs [1] }.prevP ∧
      ¬(command (bs [0, 0, 0, 0, 0, 1, 0, 1, 0]) = 0 ∨ bs [0, 0, 0, 0, 0, 1, 0, 1, 0] = tc.prevP) ∧
      command (bs [0, 0, 0, 0, 0, 1, 0, 1, 0]) = 0x05#8 := by decide

/-- T3, with Words cut to 10 bits. -/
theorem witness_RepeatedPanelWordIsRejectedOnce :
    command (bs [0, 0, 0, 0, 0, 1, 0, 1, 0, 1]) ≠ 0 ∧
      command (bs [0, 0, 0, 0, 0, 1, 0, 1, 0, 0]) = command (bs [0, 0, 0, 0, 0, 1, 0, 1, 0, 1]) ∧
      bs [0, 0, 0, 0, 0, 1, 0, 1, 0, 0] ≠ bs [0, 0, 0, 0, 0, 1, 0, 1, 0, 1] ∧
      bs [0, 0, 0, 0, 0, 1, 0, 1, 0, 1] ≠ tc.prevP := by decide

/-- No 0 bit (the empty Word and ones), and one. -/
theorem witness_KeypadAcceptanceRule :
    (∀ b ∈ bs [], b = true) ∧ (∀ b ∈ bs [1, 1, 1], b = true) ∧ false ∈ bs [1, 0, 1] := by decide

/-- Lengths 1 and 7. -/
theorem witness_ShortKeypadWordReadsZeros :
    ((bs [0]).length < 8 ∧ false ∈ bs [0]) ∧ ((bs [1, 1, 1, 1, 1, 1, 0]).length < 8 ∧ false ∈ bs [1, 1, 1, 1, 1, 1, 0]) := by
  decide

/-- Eight bits, a first edge at `TH_K + 1`, an ending edge at `TH_P + 1`. -/
theorem witness_WellTimedWordIsDelivered :
    (bs [0, 0, 1, 0, 0, 1, 1, 1]).length = (bs [1, 1, 1, 1, 1, 1, 1, 0]).length ∧
      8 ≤ (bs [0, 0, 1, 0, 0, 1, 1, 1]).length ∧ (bs [0, 0, 1, 0, 0, 1, 1, 1]).length ≤ tc8.cfg.maxBits ∧
      tc8.pBuf = [] ∧ 500 ≤ tc8.cfg.wbiUs - tc8.cfg.guardUs ∧
      tc8.cfg.wbiUs - tc8.cfg.guardUs < (BitVec.ofNat 32 9001 - tc8.lastEdgeUs).toNat ∧
      tc8.cfg.wbiUs + tc8.cfg.guardUs < 11001 ∧ 11001 < 2 ^ 32 := by decide

/-- No trailing bit and seven. -/
theorem witness_ChecksumRoundTrip :
    (bs []).length < 8 ∧ (bs [1, 1, 1, 1, 1, 1, 1]).length < 8 ∧
      checksum (panelMessageBits 0x27 true [0x05] 0x2C ++ bs [1, 0, 1]) 9 = .valid ∧
      checksum (keypadMessageBits 0x77 [0x05] 0x7C ++ bs [1]) 8 = .valid := by decide

/-- K6 and K8. -/
theorem witness_FramingBitIsNotSummed :
    (next? (exec .cksumP
      { tc with pWord := bs [0, 0, 1, 0, 0, 1, 1, 1, 1, 0, 0, 0, 0, 0, 1, 0, 1, 0, 0, 1, 0, 1, 1, 0, 0] })).map
        State.ckResult = some 0b11#2 := by decide

/-- A reset pin. -/
theorem witness_ResetEffect :
    { quiet true true with rst := true }.rst = true ∧
      next? (tick { quiet false true with rst := true } { at1000 with pBuf := bs [1] }) = some { tc with clkQ := false } := by
  decide

/-- An operation of each context answers a next state. -/
theorem witness_ContextsWriteOnlyTheirRegisters :
    contextOf (.edgeR true 5) = .sampler ∧ (next? (exec (.edgeR true 5) tc)).isSome = true ∧
      contextOf (.poll 5 5) = .poll ∧ (next? (exec (.poll 5 5) tc)).isSome = true := by decide

/-- The invariants hold in a state with Words in flight, before an event and before a tick. -/
theorem witness_StepKeepsGood :
    State.Good
        { tc with
          pBuf := bs [1, 0], kPend := bs [0], prevP := bs [0, 0, 1, 0, 0, 1, 1, 1]
          pWord := bs [0, 0, 1, 0, 0, 1, 1, 1], pcmd := 0x27, status := 1, ckResult := 2, prevK := bs [1, 0]
          inputs := [.event 0x500000000000000064#72, .tick (quiet true false)] } ∧
      (next? (step
        { tc with
          pBuf := bs [1, 0], kPend := bs [0], prevP := bs [0, 0, 1, 0, 0, 1, 1, 1]
          pWord := bs [0, 0, 1, 0, 0, 1, 1, 1], pcmd := 0x27, status := 1, ckResult := 2, prevK := bs [1, 0]
          inputs := [.event 0x500000000000000064#72, .tick (quiet true false)] })).isSome = true :=
  ⟨⟨by decide, .inr (by decide), by decide, by decide, .inr (by decide), .inr (by decide), by decide, rfl, rfl⟩,
    by decide⟩

/-- The longest register of TC with `MAX_BITS = 8`. -/
theorem witness_RegisterImageIsExact :
    (bs [0, 0, 1, 0, 0, 1, 1, 1]).length ≤ tc8.cfg.maxBits ∧
      image 8 (bs [0, 0, 1, 0, 0, 1, 1, 1]) = 0xE4#8 ∧ (lengthReg tc8.cfg (bs [0, 0, 1, 0, 0, 1, 1, 1])).toNat = 8 := by
  decide

/-- Both clauses: a reset tick and a tick with all three requests. -/
theorem witness_TickAppliesItsEventsInOrder :
    { quiet true true with rst := true }.rst = true ∧
      (⟨false, true, true, true, true, false, false, 5, 6⟩ : Pins).rst = false ∧
      (shiftSync false tc.clkSync).1 = false ∧ (shiftSync true tc.dataSync).1 = true := by decide

/-- The clock line falls while the sampler is off; the next tick enables it at the same level. -/
theorem witness_EnablingMakesNoFalseEdge :
    next? (tick (quiet false true) tc) = some { tc with clkQ := false } ∧
      (shiftSync { quiet false true with sampEn := true }.kbClk { tc with clkQ := false }.clkSync).1 =
        (shiftSync (quiet false true).kbClk tc.clkSync).1 ∧
      { quiet false true with sampEn := true }.rst = false ∧
      next? (tick { quiet false true with sampEn := true } { tc with clkQ := false }) = some { tc with clkQ := false } := by
  decide

/-- Strings of equal length, the empty ones and of two bits. -/
theorem witness_PseudoEventsExpandInOrder :
    (bs []).length = (bs []).length ∧ (bs [1, 0]).length = (bs [0, 0]).length ∧
      (expandLine (.word (bs [1, 0]) (bs [0, 0]) 1000)).map (fun e => e.2) =
        [.edgeF false 1000, .edgeR true 1500, .edgeF false 2000, .edgeR false 2500] := by decide

/-- A Word of exactly 30 bits. -/
theorem witness_StatusFlagsAreIndependent : 30 ≤ (List.replicate 30 false).length := by decide

/-- A Word of exactly 8 bits with command `0x05`, not the last accepted. -/
theorem witness_StatusMessageEmitsSetFlags :
    command (bs [0, 0, 0, 0, 0, 1, 0, 1]) = 0x05#8 ∧ bs [0, 0, 0, 0, 0, 1, 0, 1] ≠ tc.prevP := by decide

/-- No bits, ones, a pending Word of ones; a zero command and a repeat. -/
theorem witness_RejectedWordsGiveNoMessage :
    (∀ b ∈ bs [], b = true) ∧ (∀ b ∈ { tc with kPend := bs [1, 1, 1] }.kPend, b = true) ∧
      command (bs [0, 0, 0, 0, 0, 0, 0, 0, 1]) = 0 ∧ bs [1] = { tc with prevP := bs [1] }.prevP := by decide

/-- The sentinel, which is the fire code too, another command, and a one-bit Word. -/
theorem witness_KeypadMessageBranches :
    false ∈ bs [0, 1, 1, 1, 0, 1, 1, 1] ∧ command (bs [0, 1, 1, 1, 0, 1, 1, 1]) = keys.outCmd ∧
      command (bs [0, 1, 1, 1, 0, 1, 1, 1]) = keys.fireCmd ∧ false ∈ bs [0] ∧ command (bs [0]) ≠ keys.outCmd := by
  decide

end Sys2Proof.Tests
end

section
/-! PROOF. Family `00_scope.md`: slices as binary sums (R12, R13), elapsed times (R14) and the two thresholds (R8). -/

namespace Sys2Proof.Machine

/-! ## Elapsed times -/

/-- `sub32` never borrows in the naturals: the complement of the earlier reading is added (R14). -/
theorem sub32_toNat (a b : Word32) : (sub32 a b).toNat = (a.toNat + (2 ^ 32 - b.toNat)) % 2 ^ 32 := by
  rw [sub32, BitVec.toNat_sub, Nat.add_comm]

/-- The readings of two true times differ by the elapsed time modulo 2^32, however often the clock wrapped. -/
theorem sub32_ofNat {x y : Nat} (h : x ≤ y) :
    sub32 (BitVec.ofNat 32 y) (BitVec.ofNat 32 x) = BitVec.ofNat 32 (y - x) := by
  apply BitVec.eq_of_toNat_eq
  simp only [sub32_toNat, BitVec.toNat_ofNat]
  omega

/-- Settles O10: below 2^32 the elapsed time is its own residue. -/
theorem elapsedTimeIsModular : Obligations.ElapsedTimeIsModular := by
  refine ⟨sub32_toNat, fun x y hxy hlt => ?_⟩
  rw [sub32_ofNat hxy, BitVec.toNat_ofNat, Nat.mod_eq_of_lt hlt]

/-! ## Thresholds -/

/-- The guard only widens the gap between the thresholds (R8). -/
theorem thK_le_thP (c : Config) : thK c ≤ thP c := by
  rw [BitVec.le_def, thK_toNat, thP_toNat]
  omega

/-- Settles O11, from the exactness of each threshold. -/
theorem thresholdsAreExact : Obligations.ThresholdsAreExact :=
  fun c => ⟨thK_toNat c, thP_toNat c, thK_le_thP c⟩

/-! ## Slices -/

/-- Reading one bit more moves every earlier bit of the sum one binary place up. -/
theorem sum_weights_succ (f : Nat → Nat) (n : Nat) :
    ∑ j ∈ Finset.range (n + 1), f j * 2 ^ (n + 1 - 1 - j) =
      2 * ∑ j ∈ Finset.range n, f j * 2 ^ (n - 1 - j) + f n := by
  have weight_doubles : ∀ j ∈ Finset.range n, f j * 2 ^ (n - j) = 2 * (f j * 2 ^ (n - 1 - j)) := by
    intro j hj
    have hlt : j < n := Finset.mem_range.mp hj
    rw [show n - j = n - 1 - j + 1 by omega, Nat.pow_succ]
    ring
  rw [Nat.add_sub_cancel, Finset.sum_range_succ, Finset.sum_congr rfl weight_doubles, Finset.mul_sum]
  simp

/-- `uint` weighs bit `j` of a slice of `n` bits with `2 ^ (n - 1 - j)` (R12). -/
theorem uint_eq_sum (w : BitSeq) (off n : Nat) :
    uint w off n = ∑ j ∈ Finset.range n, (bitAt w (off + j)).toNat * 2 ^ (n - 1 - j) := by
  induction n with
  | zero => rfl
  | succ n ih => rw [uint, ih, sum_weights_succ fun j => (bitAt w (off + j)).toNat]

/-- Settles O28: the sum by induction on the number of bits, the spec's example by evaluation. -/
theorem sliceIsItsBinarySum : Obligations.SliceIsItsBinarySum :=
  ⟨uint_eq_sum, by decide⟩

end Sys2Proof.Machine
end

section
/-! PROOF. Family `10_state.md`: which registers the Sampler context and the poll context write (R63). -/

namespace Sys2Proof.Machine

/-! ## The Sampler context -/

/-- From `s` to `t` only the registers of the Sampler context may change (R63). -/
def SamplerWrites (s t : State) : Prop :=
  t = { s with
    pBuf := t.pBuf, kBuf := t.kBuf, kPend := t.kPend
    lastEdgeUs := t.lastEdgeUs, intervalUs := t.intervalUs }

theorem samplerWrites_edgeTiming (now : Word32) (s : State) : SamplerWrites s (edgeTiming now s) := by
  rw [edgeTiming_eq]; rfl

/-- The append of a panel bit adds `p_buf` to what a Sampler operation has written. -/
theorem SamplerWrites.appendPanel {s t : State} (d : Bool) (h : SamplerWrites s t) :
    SamplerWrites s (appendPanel d t) := by
  rw [h]; rfl

/-- The append of a keypad bit adds `k_buf` to what a Sampler operation has written. -/
theorem SamplerWrites.appendKeypad {s t : State} (d : Bool) (h : SamplerWrites s t) :
    SamplerWrites s (appendKeypad d t) := by
  rw [h]; rfl

theorem samplerWrites_after {i : Instr} (s : State) (hi : contextOf i = .sampler) :
    SamplerWrites s (after i s) := by
  cases i with
  | edgeR d t => exact (samplerWrites_edgeTiming t s).appendPanel d
  | edgeF d t => exact (samplerWrites_edgeTiming t s).appendKeypad d
  | nop | poll | cksumP | cksumK | reset => cases hi

/-! ## The poll context -/

/-- From `s` to `t` only the registers of the poll context may change, and of the two registers it shares with
the Sampler, `p_buf` and `k_pend`, each is kept or cleared (R63). -/
structure PollWrites (s t : State) : Prop where
  frame : t = { s with
    pBuf := t.pBuf, kPend := t.kPend, pWord := t.pWord, kWord := t.kWord, pcmd := t.pcmd, kcmd := t.kcmd
    status := t.status, led := t.led, prevP := t.prevP, prevK := t.prevK
    lastActivityMs := t.lastActivityMs, lastStatusMs := t.lastStatusMs, ckResult := t.ckResult }
  pBuf : t.pBuf = s.pBuf ∨ t.pBuf = []
  kPend : t.kPend = s.kPend ∨ t.kPend = []

/-- A sequence kept or cleared twice is kept or cleared. -/
theorem kept_or_cleared_trans {u v w : BitSeq} (huv : v = u ∨ v = []) (hvw : w = v ∨ w = []) :
    w = u ∨ w = [] := by
  rcases hvw with rfl | hw
  · exact huv
  · exact .inr hw

theorem PollWrites.trans {s t u : State} (hst : PollWrites s t) (htu : PollWrites t u) : PollWrites s u where
  frame := htu.frame.trans (by rw [hst.frame])
  pBuf := kept_or_cleared_trans hst.pBuf htu.pBuf
  kPend := kept_or_cleared_trans hst.kPend htu.kPend

theorem pollWrites_clearCodes (s : State) : PollWrites s (clearCodes s) := ⟨rfl, .inl rfl, .inl rfl⟩

theorem pollWrites_driveLed (m : Word32) (s : State) : PollWrites s (driveLed m s) := ⟨rfl, .inl rfl, .inl rfl⟩

theorem pollWrites_takePanel (s : State) : PollWrites s (takePanel s) := ⟨rfl, .inr rfl, .inl rfl⟩

theorem pollWrites_takeKeypad (s : State) : PollWrites s (takeKeypad s) := ⟨rfl, .inl rfl, .inr rfl⟩

theorem pollWrites_writeStatus (s : State) : PollWrites s (writeStatus s) := ⟨rfl, .inl rfl, .inl rfl⟩

theorem pollWrites_noWord (s : State) : PollWrites s (noWord s) := ⟨rfl, .inl rfl, .inl rfl⟩

theorem pollWrites_writeCk (r : CkOutcome) (s : State) : PollWrites s (writeCk r s) := ⟨rfl, .inl rfl, .inl rfl⟩

/-- A judged panel Word, rejected or accepted, moves registers of the poll context alone. -/
theorem pollWrites_judgePanel (m : Word32) (s : State) : PollWrites s (judgePanel m s) := by
  obtain ⟨_, rejected⟩ | ⟨_, _, accepted⟩ := judgePanel_cases m s
  · rw [rejected]; exact ⟨rfl, .inl rfl, .inl rfl⟩
  · rw [accepted]; exact ⟨rfl, .inl rfl, .inl rfl⟩

/-- A judged keypad Word, rejected or accepted, moves registers of the poll context alone. -/
theorem pollWrites_judgeKeypad (m : Word32) (s : State) : PollWrites s (judgeKeypad m s) := by
  obtain ⟨_, rejected⟩ | ⟨_, accepted⟩ := judgeKeypad_cases m s
  · rw [rejected]; exact ⟨rfl, .inl rfl, .inl rfl⟩
  · rw [accepted]; exact ⟨rfl, .inl rfl, .inl rfl⟩

/-- Both Words are taken, then judged, then the status is written (R163). -/
theorem pollWrites_frameWords (m : Word32) (s : State) : PollWrites s (frameWords m s) :=
  (pollWrites_takePanel s).trans <| (pollWrites_takeKeypad _).trans <|
    (pollWrites_judgePanel m _).trans <| (pollWrites_judgeKeypad m _).trans <| pollWrites_writeStatus _

theorem pollWrites_pollOnce (m : Word32) (s : State) : PollWrites s (pollOnce m s) := by
  have before_framing : PollWrites s (driveLed m (clearCodes s)) :=
    (pollWrites_clearCodes s).trans (pollWrites_driveLed m _)
  cases ready : framingReady s with
  | true => rw [pollOnce_of_ready ready]; exact before_framing.trans (pollWrites_frameWords m _)
  | false => rw [pollOnce_of_not_ready ready]; exact before_framing.trans (pollWrites_noWord _)

theorem pollWrites_after {i : Instr} (s : State) (hi : contextOf i = .poll) : PollWrites s (after i s) := by
  cases i with
  | poll _ m => exact pollWrites_pollOnce m s
  | cksumP => exact pollWrites_writeCk _ s
  | cksumK => exact pollWrites_writeCk _ s
  | nop | edgeR | edgeF | reset => cases hi

/-! ## Ownership -/

/-- Settles O40, from what each context writes. -/
theorem contextsWriteOnlyTheirRegisters : Obligations.ContextsWriteOnlyTheirRegisters := by
  intro i s t h
  obtain rfl : after i s = t := by rw [exec_eq] at h; exact Host.Outcome.next.inj h
  refine ⟨samplerWrites_after s, fun hi => ?_⟩
  obtain ⟨frame, pBuf, kPend⟩ := pollWrites_after s hi
  exact ⟨frame, pBuf, kPend⟩

end Sys2Proof.Machine
end

section
/-! PROOF. Family `30_encoding.md`: the decoder by the header of an event word (R110, R111), and the words it refuses (R114). -/

namespace Sys2Proof

/-! ## The header of an event word -/

/-- Two concatenations of the same widths agree exactly when their parts do. -/
theorem bitVec_append_eq_iff {m n : Nat} {a c : BitVec m} {b d : BitVec n} :
    a ++ b = c ++ d ↔ a = c ∧ b = d := by
  constructor
  · intro h
    have high := congrArg (BitVec.extractLsb' n m) h
    have low := congrArg (BitVec.extractLsb' 0 n) h
    rw [BitVec.extractLsb'_append_eq_left, BitVec.extractLsb'_append_eq_left] at high
    rw [BitVec.extractLsb'_append_eq_right, BitVec.extractLsb'_append_eq_right] at low
    exact ⟨high, low⟩
  · rintro ⟨rfl, rfl⟩
    rfl

/-- The top eight bits of the event word: `op`, `d` and `z` (R110). -/
def EventFields.header (f : EventFields) : Byte := f.op ++ BitVec.ofBool f.d ++ f.z

theorem EventFields.header_eq_iff (f g : EventFields) :
    f.header = g.header ↔ f.op = g.op ∧ f.d = g.d ∧ f.z = g.z := by
  rw [header, header, bitVec_append_eq_iff, bitVec_append_eq_iff, BitVec.ofBool_eq_iff_eq, and_assoc]

/-- R111's mask `0xEF` reads every bit of the header but `d`. -/
theorem EventFields.header_masked (f : EventFields) : f.header &&& 0xEF#8 = { f with d := false }.header := by
  have mask : (0xEF#8 : Byte) = BitVec.allOnes 3 ++ BitVec.ofBool false ++ BitVec.allOnes 4 := rfl
  rw [mask, header, header, BitVec.and_append, BitVec.and_append, BitVec.and_allOnes, BitVec.and_allOnes,
    BitVec.ofBool_and_ofBool, Bool.and_false]

/-- A header is its masked bits together with `d`. -/
theorem EventFields.header_eq_iff_masked (f g : EventFields) :
    f.header = g.header ↔ f.header &&& 0xEF#8 = g.header &&& 0xEF#8 ∧ f.d = g.d := by
  simp only [header_masked, header_eq_iff]
  tauto

/-- One bit of a word, as a slice and as a truth value. -/
theorem extractLsb'_one_eq_ofBool {n : Nat} (w : BitVec n) (i : Nat) :
    w.extractLsb' i 1 = BitVec.ofBool (w.getLsbD i) := by
  ext j hj
  obtain rfl : j = 0 := by omega
  simp

/-- The header of the fields is bits 71 to 64 of the word they were read from (R110). -/
theorem EventFields.header_ofWord (w : EventWord) : (ofWord w).header = w.extractLsb' 64 8 := by
  have op_d : w.extractLsb' 69 3 ++ w.extractLsb' 68 1 = w.extractLsb' 68 4 :=
    BitVec.extractLsb'_append_extractLsb'_eq_extractLsb' rfl
  have op_d_z : w.extractLsb' 68 4 ++ w.extractLsb' 64 4 = w.extractLsb' 64 8 :=
    BitVec.extractLsb'_append_extractLsb'_eq_extractLsb' rfl
  rw [← op_d_z, ← op_d, extractLsb'_one_eq_ofBool]
  rfl

/-! ## What the fields spell -/

/-- The time fields an operation uses hold its operands: the column "operands used" of R111. -/
def EventFields.timesSpell (f : EventFields) : Instr → Prop
  | .nop => True
  | .edgeR _ t => f.tUs = t
  | .edgeF _ t => f.tUs = t
  | .poll u m => f.tUs = u ∧ f.tMs = m
  | .cksumP => True
  | .cksumK => True
  | .reset => True

/-- The fields spell an operation: its header, and its operands in the time fields it uses. -/
structure EventFields.Spells (f : EventFields) (i : Instr) : Prop where
  header : f.header = i.fields.header
  times : f.timesSpell i

/-- The fields written for every operation spell it. -/
theorem fieldsSpellIt (i : Instr) : Laws.FieldsSpellIt.Statement i := by
  cases i with
  | nop => exact Laws.FieldsSpellIt.nop
  | edgeR d t => exact Laws.FieldsSpellIt.edgeR d t
  | edgeF d t => exact Laws.FieldsSpellIt.edgeF d t
  | poll u m => exact Laws.FieldsSpellIt.poll u m
  | cksumP => exact Laws.FieldsSpellIt.cksumP
  | cksumK => exact Laws.FieldsSpellIt.cksumK
  | reset => exact Laws.FieldsSpellIt.reset

/-- A code of `op` that is none of the others is RESET's, so the decoder's last branch is that row of R111. -/
theorem eq_reset_op_of_ne {op : BitVec 3} (h0 : op ≠ 0b000#3) (h1 : op ≠ 0b001#3) (h2 : op ≠ 0b010#3)
    (h3 : op ≠ 0b011#3) (h4 : op ≠ 0b100#3) (h5 : op ≠ 0b101#3) (h6 : op ≠ 0b110#3) : op = 0b111#3 := by
  bv_omega

/-- Everything the decoder can answer: an error on ill-formed fields, or the operation the fields spell. -/
theorem EventFields.decode_cases (f : EventFields) :
    (f.wf = false ∧ ∃ e, f.decode = .error e) ∨ ∃ i, f.decode = .ok i ∧ f.Spells i := by
  unfold EventFields.decode
  split_ifs with reserved z edgeR edgeF d nop poll cksumP cksumK
  · exact .inl ⟨by simp [wf, opOk, reserved], _, rfl⟩
  · exact .inl ⟨by simp [wf, zOk, z], _, rfl⟩
  all_goals rw [not_not] at z
  · exact .inr ⟨_, rfl, (header_eq_iff ..).2 ⟨edgeR, rfl, z⟩, rfl⟩
  · exact .inr ⟨_, rfl, (header_eq_iff ..).2 ⟨edgeF, rfl, z⟩, rfl⟩
  · exact .inl ⟨by simp [wf, dOk, d, edgeR, edgeF], _, rfl⟩
  all_goals rw [Bool.not_eq_true] at d
  · exact .inr ⟨_, rfl, (header_eq_iff ..).2 ⟨nop, d, z⟩, trivial⟩
  · exact .inr ⟨_, rfl, (header_eq_iff ..).2 ⟨poll, d, z⟩, rfl, rfl⟩
  · exact .inr ⟨_, rfl, (header_eq_iff ..).2 ⟨cksumP, d, z⟩, trivial⟩
  · exact .inr ⟨_, rfl, (header_eq_iff ..).2 ⟨cksumK, d, z⟩, trivial⟩
  · have reset := eq_reset_op_of_ne nop edgeR edgeF poll cksumP cksumK reserved
    exact .inr ⟨_, rfl, (header_eq_iff ..).2 ⟨reset, d, z⟩, trivial⟩

theorem EventFields.Spells.wf {f : EventFields} {i : Instr} (h : f.Spells i) : f.wf = true := by
  obtain ⟨op, d, z⟩ := (header_eq_iff ..).1 h.header
  rw [← (fieldsSpellIt i).1]
  simp only [EventFields.wf, opOk, zOk, dOk, op, d, z]

/-- The decoder reads nothing but the header and the time fields in use. -/
theorem EventFields.Spells.decode_eq {f : EventFields} {i : Instr} (h : f.Spells i) : f.decode = .ok i := by
  obtain ⟨header, times⟩ := h
  obtain ⟨op, d, z⟩ := (header_eq_iff ..).1 header
  rw [EventFields.decode, op, d, z]
  cases i with
  | edgeR | edgeF => cases times; rfl
  | poll => obtain ⟨rfl, rfl⟩ := times; rfl
  | nop | cksumP | cksumK | reset => rfl

theorem EventFields.decode_eq_ok_iff (f : EventFields) (i : Instr) : f.decode = .ok i ↔ f.Spells i := by
  refine ⟨fun h => ?_, Spells.decode_eq⟩
  obtain ⟨_, _, error⟩ | ⟨j, ok, spells⟩ := f.decode_cases
  · rw [error] at h; cases h
  · rw [ok] at h; cases h; exact spells

theorem EventFields.exists_decode_eq_ok_iff (f : EventFields) : (∃ i, f.decode = .ok i) ↔ f.wf = true := by
  constructor
  · rintro ⟨i, ok⟩
    exact ((f.decode_eq_ok_iff i).1 ok).wf
  · intro wf
    obtain ⟨not_wf, _⟩ | ⟨i, ok, _⟩ := f.decode_cases
    · rw [wf] at not_wf; cases not_wf
    · exact ⟨i, ok⟩

theorem EventFields.exists_decode_eq_error_iff (f : EventFields) : (∃ e, f.decode = .error e) ↔ f.wf = false := by
  constructor
  · rintro ⟨e, error⟩
    obtain ⟨not_wf, _⟩ | ⟨i, ok, _⟩ := f.decode_cases
    · exact not_wf
    · rw [ok] at error; cases error
  · intro not_wf
    obtain ⟨_, error⟩ | ⟨i, _, spells⟩ := f.decode_cases
    · exact error
    · rw [spells.wf] at not_wf; cases not_wf

/-! ## The opcode map -/

/-- R110 and R111 together: a word decodes to an operation by its header and the time fields in use. -/
theorem decode_eq_ok_iff (w : EventWord) (i : Instr) :
    decode w = .ok i ↔ w.extractLsb' 64 8 = i.fields.header ∧ (EventFields.ofWord w).timesSpell i := by
  rw [decode, EventFields.decode_eq_ok_iff, ← EventFields.header_ofWord]
  exact ⟨fun h => ⟨h.header, h.times⟩, fun ⟨header, times⟩ => ⟨header, times⟩⟩

/-- An operation without operands decodes from its header alone. -/
theorem decode_eq_ok_iff_header {i : Instr} (h : ∀ f : EventFields, f.timesSpell i) (w : EventWord) :
    decode w = .ok i ↔ w.extractLsb' 64 8 = i.fields.header := by
  rw [decode_eq_ok_iff, and_iff_left (h _)]

/-- The header of an edge is its masked match of R111 together with the bit `d` of the word. -/
theorem header_eq_iff_masked (w : EventWord) (g : EventFields) :
    w.extractLsb' 64 8 = g.header ↔
      w.extractLsb' 64 8 &&& 0xEF#8 = { g with d := false }.header ∧ g.d = w.getLsbD 68 := by
  rw [← EventFields.header_ofWord, EventFields.header_eq_iff_masked, g.header_masked, @eq_comm _ g.d]
  rfl

theorem decode_eq_edgeR_iff (w : EventWord) (d : Bool) (t : Word32) :
    decode w = .ok (.edgeR d t) ↔
      w.extractLsb' 64 8 &&& 0xEF#8 = 0x20#8 ∧ d = w.getLsbD 68 ∧ t = w.extractLsb' 0 32 := by
  rw [decode_eq_ok_iff, header_eq_iff_masked, and_assoc, @eq_comm _ t]
  simp [Instr.fields, EventFields.header, EventFields.timesSpell, EventFields.ofWord]

theorem decode_eq_edgeF_iff (w : EventWord) (d : Bool) (t : Word32) :
    decode w = .ok (.edgeF d t) ↔
      w.extractLsb' 64 8 &&& 0xEF#8 = 0x40#8 ∧ d = w.getLsbD 68 ∧ t = w.extractLsb' 0 32 := by
  rw [decode_eq_ok_iff, header_eq_iff_masked, and_assoc, @eq_comm _ t]
  simp [Instr.fields, EventFields.header, EventFields.timesSpell, EventFields.ofWord]

theorem decode_eq_poll_iff (w : EventWord) (u m : Word32) :
    decode w = .ok (.poll u m) ↔
      w.extractLsb' 64 8 = 0x60#8 ∧ u = w.extractLsb' 0 32 ∧ m = w.extractLsb' 32 32 := by
  rw [decode_eq_ok_iff, @eq_comm _ u, @eq_comm _ m]
  simp [Instr.fields, EventFields.header, EventFields.timesSpell, EventFields.ofWord]

/-- POLL's `t_us` is read by no rule (R111). -/
theorem exec_poll_ignores_tUs (u u' m : Word32) (s : Machine.State) :
    Machine.exec (.poll u m) s = Machine.exec (.poll u' m) s := by
  rw [Machine.exec_eq, Machine.exec_eq, Machine.after_poll, Machine.after_poll]

/-- Settles O3, row by row of R111's table. -/
theorem opcodeMapByHeader : Obligations.OpcodeMapByHeader :=
  ⟨decode_eq_ok_iff_header fun _ => trivial,
    decode_eq_edgeR_iff,
    decode_eq_edgeF_iff,
    decode_eq_poll_iff,
    decode_eq_ok_iff_header fun _ => trivial,
    decode_eq_ok_iff_header fun _ => trivial,
    decode_eq_ok_iff_header fun _ => trivial,
    exec_poll_ignores_tUs⟩

/-! ## The words that spell no operation -/

/-- R114's three conditions are the failures of the checks on the fields. -/
theorem EventFields.wf_eq_false_iff (f : EventFields) :
    f.wf = false ↔
      f.op = 0b110#3 ∨ f.z ≠ 0#4 ∨ (f.d = true ∧ f.op ≠ 0b001#3 ∧ f.op ≠ 0b010#3) := by
  simp only [wf, opOk, zOk, dOk, Bool.and_eq_false_iff, Bool.or_eq_false_iff, bne_eq_false_iff_eq, beq_eq_false_iff_ne,
    Bool.not_eq_false', or_assoc, and_assoc]

end Sys2Proof

namespace Sys2Proof.Machine

/-- A step that meets an event word runs it with the word taken off the line. -/
theorem step_of_event {s : State} {w : EventWord} {rest : List Input} (h : s.inputs = .event w :: rest) :
    step s = runEventWord w { s with inputs := rest } := by
  rw [step, h]
  rfl

theorem runEventWord_of_error {w : EventWord} {e : EventError} (h : decode w = .error e) (s : State) :
    runEventWord w s = .refused (.invalidEvent e) := by
  rw [runEventWord, h]

/-- Settles O4: R114's conditions say that the fields are ill-formed, and the decoder refuses exactly those. -/
theorem invalidEventWordsAreRefused : Obligations.InvalidEventWordsAreRefused := by
  intro w
  have ill_formed := (EventFields.ofWord w).wf_eq_false_iff
  refine ⟨fun invalid => ?_, fun valid => ?_⟩
  · obtain ⟨e, error⟩ := (EventFields.exists_decode_eq_error_iff _).2 (ill_formed.2 invalid)
    refine ⟨⟨e, error⟩, fun s rest next => ⟨e, ?_⟩⟩
    rw [step_of_event next, runEventWord_of_error error]
  · have well_formed : (EventFields.ofWord w).wf = true := by
      rw [← Bool.not_eq_false, ill_formed]
      exact valid
    exact (EventFields.exists_decode_eq_ok_iff _).2 well_formed

end Sys2Proof.Machine
end

section
/-! PROOF. Family `40_sampler.md`: the timing part of an edge (R131), the two appends (R133, R134), both edges on every state (R136, R137) and saturation (R135). -/

namespace Sys2Proof.Machine

/-! ## The timing part -/

theorem edgeTiming_of_boundary {now : Word32} {s : State}
    (boundary : s.cfg.wbiUs - s.cfg.guardUs < (now - s.lastEdgeUs).toNat) :
    edgeTiming now s =
      { s with intervalUs := now - s.lastEdgeUs, lastEdgeUs := now, kPend := s.kBuf, kBuf := [] } := by
  rw [edgeTiming_eq, (isBoundary_iff ..).2 boundary]
  rfl

theorem edgeTiming_of_not_boundary {now : Word32} {s : State}
    (within : (now - s.lastEdgeUs).toNat ≤ s.cfg.wbiUs - s.cfg.guardUs) :
    edgeTiming now s = { s with intervalUs := now - s.lastEdgeUs, lastEdgeUs := now } := by
  have not_boundary : isBoundary s.cfg (now - s.lastEdgeUs) = false := by
    rw [← Bool.not_eq_true, isBoundary_iff]
    exact Nat.not_lt.2 within
  rw [edgeTiming_eq, not_boundary]
  rfl

@[simp] theorem edgeTiming_cfg (now : Word32) (s : State) : (edgeTiming now s).cfg = s.cfg := by
  rw [edgeTiming_eq]

@[simp] theorem edgeTiming_pBuf (now : Word32) (s : State) : (edgeTiming now s).pBuf = s.pBuf := by
  rw [edgeTiming_eq]

theorem exec_edgeR (d : Bool) (t : Word32) (s : State) :
    exec (.edgeR d t) s = .next (appendPanel d (edgeTiming t s)) := by
  rw [exec_eq, after_edgeR]

theorem exec_edgeF (d : Bool) (t : Word32) (s : State) :
    exec (.edgeF d t) s = .next (appendKeypad d (edgeTiming t s)) := by
  rw [exec_eq, after_edgeF]

/-- Settles O13: the interval is a boundary's or is not, and each edge appends to what the timing part leaves. -/
theorem edgeTimingRule : Obligations.EdgeTimingRule :=
  ⟨fun _ _ => ⟨edgeTiming_of_boundary, edgeTiming_of_not_boundary⟩,
    fun d t s => ⟨exec_edgeR d t s, exec_edgeF d t s⟩⟩

/-! ## The appends -/

/-- A saturated panel buffer drops the bit (R135). -/
theorem appendPanel_of_full {s : State} (d : Bool) (full : s.cfg.maxBits ≤ s.pBuf.length) :
    appendPanel d s = s := by
  rw [appendPanel, append_of_ge d full]

/-- A saturated keypad buffer drops the bit (R135). -/
theorem appendKeypad_of_full {s : State} (d : Bool) (full : s.cfg.maxBits ≤ s.kBuf.length) :
    appendKeypad d s = s := by
  rw [appendKeypad, append_of_ge d full]

/-- After a hand-off the append always succeeds, since `MAX_BITS` is not 0 (R7, R137). -/
theorem appendKeypad_of_empty {s : State} (d : Bool) (empty : s.kBuf = []) :
    appendKeypad d s = { s with kBuf := [d] } := by
  have room : ([] : BitSeq).length < s.cfg.maxBits := Nat.lt_of_lt_of_le (by decide) s.cfg.maxBits_ge
  rw [appendKeypad, empty, append_of_lt d room, List.nil_append]

/-! ## The edges on every state -/

/-- Settles O14: the panel append does not read what the timing part writes, so it reads the old `p_buf`. -/
theorem risingEdgeEffect : Obligations.RisingEdgeEffect := by
  intro d t s
  rw [exec_edgeR]
  by_cases boundary : s.cfg.wbiUs - s.cfg.guardUs < (t - s.lastEdgeUs).toNat
  · simp only [edgeTiming_of_boundary boundary, if_pos boundary]
    rfl
  · simp only [edgeTiming_of_not_boundary (Nat.le_of_not_lt boundary), if_neg boundary]
    rfl

/-- A boundary edge starts the new keypad buffer with its own bit (R137). -/
theorem exec_edgeF_of_boundary {t : Word32} {s : State} (d : Bool)
    (boundary : s.cfg.wbiUs - s.cfg.guardUs < (t - s.lastEdgeUs).toNat) :
    exec (.edgeF d t) s = .next
      { s with intervalUs := t - s.lastEdgeUs, lastEdgeUs := t, kPend := s.kBuf, kBuf := [d] } := by
  rw [exec_edgeF, edgeTiming_of_boundary boundary, appendKeypad_of_empty d rfl]

/-- Settles O15: on a boundary edge the buffer restarts with `d`, on any other the old one takes `d`. -/
theorem fallingEdgeEffect : Obligations.FallingEdgeEffect := by
  intro d t s
  by_cases boundary : s.cfg.wbiUs - s.cfg.guardUs < (t - s.lastEdgeUs).toNat
  · simp only [exec_edgeF_of_boundary d boundary, if_pos boundary]
  · simp only [exec_edgeF, edgeTiming_of_not_boundary (Nat.le_of_not_lt boundary), if_neg boundary]
    rfl

/-! ## Saturation -/

/-- While the panel buffer has room for all of them, it takes the bits of rising edges at any times (R133). -/
theorem applyEvents_edgeR_pBuf (es : List (Bool × Word32)) (s : State)
    (room : s.pBuf.length + es.length ≤ s.cfg.maxBits) :
    ∃ t, applyEvents (es.map fun e => .edgeR e.1 e.2) s = .next t ∧ t.pBuf = s.pBuf ++ es.map (fun e => e.1) := by
  induction es generalizing s with
  | nil => exact ⟨s, applyEvents_nil s, (List.append_nil _).symm⟩
  | cons e es ih =>
    rw [List.length_cons] at room
    have stored : (appendPanel e.1 (edgeTiming e.2 s)).pBuf = s.pBuf ++ [e.1] := by
      rw [appendPanel_pBuf, edgeTiming_cfg, edgeTiming_pBuf, append_of_lt e.1 (by omega)]
    obtain ⟨t, run, pBuf⟩ := ih (appendPanel e.1 (edgeTiming e.2 s)) (by
      rw [stored, appendPanel_cfg, edgeTiming_cfg, List.length_append, List.length_singleton]
      omega)
    refine ⟨t, ?_, ?_⟩
    · rw [List.map_cons, applyEvents_cons (exec_edgeR ..), run]
    · rw [pBuf, stored, List.append_assoc, List.map_cons, List.singleton_append]

@[simp] theorem judgePanel_pBuf (m : Word32) (s : State) : (judgePanel m s).pBuf = s.pBuf := by
  obtain ⟨_, rejected⟩ | ⟨_, _, accepted⟩ := judgePanel_cases m s
  · rw [rejected]
  · rw [accepted, stampPanel_pBuf]

@[simp] theorem judgeKeypad_pBuf (m : Word32) (s : State) : (judgeKeypad m s).pBuf = s.pBuf := by
  obtain ⟨_, rejected⟩ | ⟨_, accepted⟩ := judgeKeypad_cases m s
  · rw [rejected]
  · rw [accepted, stampKeypad_pBuf]

/-- Nothing after the take of the panel Word writes `p_buf` (R165). -/
@[simp] theorem frameWords_pBuf (m : Word32) (s : State) : (frameWords m s).pBuf = [] := by
  rw [frameWords, writeStatus_pBuf, judgeKeypad_pBuf, judgePanel_pBuf, takeKeypad_pBuf, takePanel_pBuf]

/-- Settles O17: R135 clause by clause. -/
theorem saturationRule : Obligations.SaturationRule := by
  refine ⟨fun s es empty fills => ?fed, fun d u s full => ?rising, fun d u s full => ⟨fun within => ?falling,
    fun boundary => ?fallingBoundary⟩, fun u m s ended full => ?poll, fun s => ?reset⟩
  case fed =>
    obtain ⟨t, run, pBuf⟩ := applyEvents_edgeR_pBuf es s (by rw [empty, List.length_nil, Nat.zero_add, fills])
    exact ⟨t, run, by rw [pBuf, empty, List.nil_append]⟩
  case rising =>
    rw [exec_edgeR, appendPanel_of_full d (by rw [edgeTiming_cfg, edgeTiming_pBuf, full])]
  case falling =>
    have still_full : (edgeTiming u s).cfg.maxBits ≤ (edgeTiming u s).kBuf.length := by
      rw [edgeTiming_of_not_boundary within]
      exact full.ge
    rw [exec_edgeF, appendKeypad_of_full d still_full]
  case fallingBoundary =>
    rw [exec_edgeF_of_boundary d boundary, edgeTiming_of_boundary boundary]
  case poll =>
    have ready : framingReady s = true :=
      (framingReady_iff s).2 ⟨ended, full ▸ s.cfg.maxBits_ge⟩
    exact ⟨_, exec_eq _ s, by rw [after_poll, pollOnce_of_ready ready, frameWords_pBuf]⟩
  case reset =>
    exact ⟨_, exec_eq _ s, by rw [after_reset, resetRegisters_pBuf], by rw [after_reset, resetRegisters_kBuf]⟩

end Sys2Proof.Machine
end

section
/-! PROOF. Family `41_framer.md`: POLL on every state (R160 to R169) and the status it leaves (R168). -/

namespace Sys2Proof.Machine

/-! ## The status -/

theorem ofBool_append_toNat (k p : Bool) :
    (BitVec.ofBool k ++ BitVec.ofBool p).toNat = (if k then 2 else 0) + (if p then 1 else 0) := by
  cases k <;> cases p <;> rfl

/-- The concatenation of R168 as a number: bit 1 for the keypad code, bit 0 for the panel code. -/
theorem statusOf_toNat (kcmd pcmd : Byte) :
    (statusOf kcmd pcmd).toNat = (if kcmd ≠ 0 then 2 else 0) + (if pcmd ≠ 0 then 1 else 0) := by
  simp only [statusOf, ofBool_append_toNat, bne_iff_ne]

/-- With no code decoded the status is that of the no-word path (R169). -/
theorem statusOf_zero : statusOf 0 0 = 0 := by decide

/-- The status, read off the two judgements instead of the two codes. -/
theorem statusOf_judged (p k prev : BitSeq) :
    statusOf (if false ∈ k then command k else 0) (if p = prev then 0 else command p) =
      BitVec.ofNat 2 ((if false ∈ k ∧ command k ≠ 0 then 2 else 0) + (if command p ≠ 0 ∧ p ≠ prev then 1 else 0)) := by
  have keypad_decoded : (if false ∈ k then command k else 0) ≠ 0 ↔ false ∈ k ∧ command k ≠ 0 := ite_ne_right_iff
  have panel_decoded : (if p = prev then 0 else command p) ≠ 0 ↔ command p ≠ 0 ∧ p ≠ prev := by
    rw [ite_ne_left_iff, and_comm, ne_comm]
  simp only [← keypad_decoded, ← panel_decoded, ← statusOf_toNat, BitVec.ofNat_toNat, BitVec.setWidth_eq]

/-! ## The two judgements -/

/-- The panel half of the dispatch on every state (R190 to R192). A rejected Word answers 0 whether it repeats
the last one or has command 0, so the code depends on the repetition alone. -/
theorem judgePanel_eq (m : Word32) (s : State) :
    judgePanel m s =
      { s with
        pcmd := if s.pWord = s.prevP then 0 else command s.pWord
        prevP := if command s.pWord ≠ 0 ∧ s.pWord ≠ s.prevP then s.pWord else s.prevP
        lastActivityMs := if command s.pWord ≠ 0 ∧ s.pWord ≠ s.prevP then m else s.lastActivityMs
        lastStatusMs := if command s.pWord = 5 ∧ s.pWord ≠ s.prevP then m else s.lastStatusMs } := by
  obtain ⟨zero | repeated, rejected⟩ | ⟨nonzero, fresh, accepted⟩ := judgePanel_cases m s
  · simp [rejected, zero]
  · simp [rejected, repeated]
  · simp only [accepted, if_neg fresh, and_iff_left fresh, if_pos nonzero]
    rfl

/-- The keypad half of the dispatch on every state (R193, R194). -/
theorem judgeKeypad_eq (m : Word32) (s : State) :
    judgeKeypad m s =
      { s with
        kcmd := if false ∈ s.kWord then command s.kWord else 0
        prevK := if false ∈ s.kWord then s.kWord else s.prevK
        lastActivityMs := if false ∈ s.kWord then m else s.lastActivityMs } := by
  obtain ⟨ones, rejected⟩ | ⟨zero_bit, accepted⟩ := judgeKeypad_cases m s
  · simp only [rejected, if_neg ones]
  · simp only [accepted, if_pos zero_bit, stampKeypad]

/-! ## POLL -/

/-- Steps 4 to 6 of a POLL that frames, on every state (R163). The keypad is judged second, and its stamp of the
activity time is the panel's, so either acceptance leaves `m`. -/
theorem frameWords_eq (m : Word32) (s : State) :
    frameWords m s =
      { s with
        pWord := s.pBuf
        pBuf := []
        kWord := s.kPend
        kPend := []
        pcmd := if s.pBuf = s.prevP then 0 else command s.pBuf
        kcmd := if false ∈ s.kPend then command s.kPend else 0
        prevP := if command s.pBuf ≠ 0 ∧ s.pBuf ≠ s.prevP then s.pBuf else s.prevP
        prevK := if false ∈ s.kPend then s.kPend else s.prevK
        lastActivityMs :=
          if (command s.pBuf ≠ 0 ∧ s.pBuf ≠ s.prevP) ∨ false ∈ s.kPend then m else s.lastActivityMs
        lastStatusMs := if command s.pBuf = 5 ∧ s.pBuf ≠ s.prevP then m else s.lastStatusMs
        status := BitVec.ofNat 2
          ((if false ∈ s.kPend ∧ command s.kPend ≠ 0 then 2 else 0) +
            (if command s.pBuf ≠ 0 ∧ s.pBuf ≠ s.prevP then 1 else 0)) } := by
  simp only [← statusOf_judged, or_comm (b := false ∈ s.kPend), ite_or]
  rw [frameWords, judgeKeypad_eq, judgePanel_eq]
  rfl

theorem exec_poll (u m : Word32) (s : State) : exec (.poll u m) s = .next (pollOnce m s) := by
  rw [exec_eq, after_poll]

/-- Settles O20: what precedes the framing test changes neither its registers nor those the judgements read. -/
theorem pollEffect : Obligations.PollEffect := by
  refine ⟨fun u m s not_ready => ?_, fun u m s ended enough => ?_⟩
  · rw [← framingReady_iff, Bool.not_eq_true] at not_ready
    rw [exec_poll, pollOnce_of_not_ready not_ready, ← ledLevel_eq]
    rfl
  · rw [exec_poll, pollOnce_of_ready ((framingReady_iff s).2 ⟨ended, enough⟩), frameWords_eq, ← ledLevel_eq]
    rfl

/-- Every POLL leaves the status of the codes it leaves: computed from them when it frames (R168), 0 when both
are cleared (R169). -/
theorem pollOnce_status (m : Word32) (s : State) :
    (pollOnce m s).status = statusOf (pollOnce m s).kcmd (pollOnce m s).pcmd := by
  cases ready : framingReady s with
  | true => rw [pollOnce_of_ready ready]; rfl
  | false => rw [pollOnce_of_not_ready ready]; exact statusOf_zero.symm

/-- Settles O21, from the status as a function of the two codes. -/
theorem statusSaysWhichWordsDecoded : Obligations.StatusSaysWhichWordsDecoded :=
  fun u m s => ⟨pollOnce m s, exec_poll u m s, by rw [pollOnce_status, statusOf_toNat]⟩

end Sys2Proof.Machine
end

section
/-! PROOF. Family `42_acceptance.md`: the panel acceptance (R190 to R192), the keypad acceptance (R193, R194), short keypad Words (R196) and the messages rejection withholds (R199). -/

namespace Sys2Proof.Machine

/-! ## The panel acceptance -/

theorem acceptPanel_of_rejected {w : BitSeq} {s : State} (m : Word32) (rejected : command w = 0 ∨ w = s.prevP) :
    acceptPanel w m s = (0, s) := by
  obtain ⟨_, answer⟩ | ⟨nonzero, fresh, _⟩ := acceptPanel_cases w m s
  · exact answer
  · exact absurd rejected (not_or.2 ⟨nonzero, fresh⟩)

theorem acceptPanel_of_accepted {w : BitSeq} {s : State} (m : Word32) (accepted : ¬(command w = 0 ∨ w = s.prevP)) :
    acceptPanel w m s = (command w, stampPanel w m s) := by
  obtain ⟨rejected, _⟩ | ⟨_, _, answer⟩ := acceptPanel_cases w m s
  · exact absurd rejected accepted
  · exact answer

/-- Settles O24: the three writes of R192 are those of `stampPanel`. -/
theorem panelAcceptanceRule : Obligations.PanelAcceptanceRule :=
  fun _ m _ => ⟨acceptPanel_of_rejected m, acceptPanel_of_accepted m⟩

/-! ## The keypad acceptance -/

/-- A Word of ones, the empty one included, is a Word with no 0 bit (R193). -/
theorem forall_eq_true_iff_false_notMem (w : BitSeq) : (∀ b ∈ w, b = true) ↔ false ∉ w := by
  rw [← hasZero_iff, hasZero, List.any_eq_true]
  simp

theorem acceptKeypad_of_ones {w : BitSeq} (m : Word32) (s : State) (ones : ∀ b ∈ w, b = true) :
    acceptKeypad w m s = (0, s) := by
  obtain ⟨_, answer⟩ | ⟨zero_bit, _⟩ := acceptKeypad_cases w m s
  · exact answer
  · exact absurd zero_bit ((forall_eq_true_iff_false_notMem w).1 ones)

theorem acceptKeypad_of_zero_bit {w : BitSeq} (m : Word32) (s : State) (zero_bit : false ∈ w) :
    acceptKeypad w m s = (command w, stampKeypad w m s) := by
  obtain ⟨ones, _⟩ | ⟨_, answer⟩ := acceptKeypad_cases w m s
  · exact absurd zero_bit ones
  · exact answer

/-- Settles O26: the two writes of R193 are those of `stampKeypad`. -/
theorem keypadAcceptanceRule : Obligations.KeypadAcceptanceRule :=
  fun _ m s => ⟨acceptKeypad_of_ones m s, acceptKeypad_of_zero_bit m s⟩

/-! ## Short keypad Words -/

/-- Each bit read past the end of a Word is a 0, which doubles the value read so far (R13). -/
theorem uint_add_of_length_le {w : BitSeq} {off n : Nat} (past_end : w.length ≤ off + n) (k : Nat) :
    uint w off (n + k) = uint w off n * 2 ^ k := by
  induction k with
  | zero => rw [Nat.add_zero, Nat.pow_zero, Nat.mul_one]
  | succ k ih =>
    have zero_fill : bitAt w (off + (n + k)) = false := bitAt_of_ge (by omega)
    rw [← Nat.add_assoc, uint, zero_fill, ih, Bool.toNat_false, Nat.pow_succ]
    ring

/-- The command byte of a Word of at most 8 bits: its bits in the high-order positions, zeros below (R196). -/
theorem command_toNat_of_length_le {w : BitSeq} (short : w.length ≤ 8) :
    (command w).toNat = uint w 0 w.length * 2 ^ (8 - w.length) := by
  calc (command w).toNat = uint w 0 8 := byteAt_toNat w 0
    _ = uint w 0 (w.length + (8 - w.length)) := by rw [Nat.add_sub_cancel' short]
    _ = uint w 0 w.length * 2 ^ (8 - w.length) := uint_add_of_length_le (Nat.zero_add _).ge _

/-- Settles O27: the Word is accepted for its 0 bit, and its command byte is zero-filled; the spec's example is a
case of the acceptance, its byte found by evaluation. -/
theorem shortKeypadWordReadsZeros : Obligations.ShortKeypadWordReadsZeros := by
  refine ⟨fun w m s short zero_bit => ?_, fun m s => ?_⟩
  · rw [acceptKeypad_of_zero_bit m s zero_bit]
    exact ⟨command_toNat_of_length_le short.le, rfl⟩
  · have example_command : command [true, false, true] = 0xA0#8 := by decide
    rw [acceptKeypad_of_zero_bit m s (by decide), example_command]

/-! ## Rejected Words and their messages -/

theorem keypadMessage_of_ones {w : BitSeq} (t : KeypadTable) (ones : ∀ b ∈ w, b = true) :
    keypadMessage t w = none := by
  rw [← Option.not_isSome_iff_eq_none, keypadMessage_isSome, hasZero_iff]
  exact (forall_eq_true_iff_false_notMem w).1 ones

theorem panelMessage_zero (pf : Nat) (w : BitSeq) : panelMessage pf 0 w = none :=
  if_pos rfl

/-- A POLL has a keypad message only when it frames, and then it is that of the pending Word. -/
theorem pollMessages_keypad (pf : Nat) (t : KeypadTable) (m : Word32) (s : State) :
    (pollMessages pf t m s).2 = if framingReady s then keypadMessage t s.kPend else none := by
  rw [pollMessages, apply_ite Prod.snd]

/-- A POLL on a pending Word of ones decodes no keypad command, whether it frames and rejects the Word (R193) or
does not frame (R169). -/
theorem pollOnce_keypad_of_ones {s : State} (m : Word32) (ones : ∀ b ∈ s.kPend, b = true) :
    (pollOnce m s).kcmd = 0 ∧ (pollOnce m s).prevK = s.prevK := by
  have no_zero_bit : false ∉ (driveLed m (clearCodes s)).kPend := (forall_eq_true_iff_false_notMem _).1 ones
  cases ready : framingReady s with
  | true =>
    rw [pollOnce_of_ready ready, frameWords_eq]
    exact ⟨if_neg no_zero_bit, if_neg no_zero_bit⟩
  | false =>
    rw [pollOnce_of_not_ready ready]
    exact ⟨rfl, rfl⟩

/-- Settles O52: the keypad rejection, the two panel rejections, and a POLL on a pending Word of ones. -/
theorem rejectedWordsGiveNoMessage : Obligations.RejectedWordsGiveNoMessage := by
  refine ⟨fun w m s t ones => ?keypad, fun w m s pf rejected => ?panel, fun pf t u m s ones => ?poll⟩
  case keypad => exact ⟨acceptKeypad_of_ones m s ones, keypadMessage_of_ones t ones⟩
  case panel =>
    rw [acceptPanel_of_rejected m rejected]
    exact ⟨rfl, panelMessage_zero pf w⟩
  case poll =>
    refine ⟨?_, pollOnce m s, exec_poll u m s, pollOnce_keypad_of_ones m ones⟩
    rw [pollMessages_keypad, keypadMessage_of_ones t ones, ite_self]

end Sys2Proof.Machine
end

section
/-! PROOF. Family `43_checksum.md`: the checksum of a Word by its length (R210 to R213), its 8-bit sum as the document's wide sum (R218), and CKSUM.P and CKSUM.K on every state (R216, R217). -/

namespace Sys2Proof.Machine

/-! ## The adder -/

/-- Reducing modulo 256 after every addition gives the document's wide sum reduced once (R218). -/
theorem sumGroups_toNat (w : BitSeq) (start : Nat) (s0 : Byte) (k : Nat) :
    (sumGroups w start s0 k).toNat = (s0.toNat + ∑ i ∈ Finset.range k, uint w (start + 8 * i) 8) % 256 := by
  induction k with
  | zero => exact (Nat.mod_eq_of_lt s0.isLt).symm
  | succ k ih =>
    rw [sumGroups, BitVec.toNat_add, ih, group, byteAt_toNat, Finset.sum_range_succ, ← Nat.add_assoc, Nat.mod_add_mod]

/-- R215: the comparison of the two bytes, in natural numbers. -/
theorem sumGroups_eq_group_iff (w : BitSeq) (start n : Nat) :
    sumGroups w start (command w) n = group w start n ↔
      (uint w 0 8 + ∑ i ∈ Finset.range n, uint w (start + 8 * i) 8) % 256 = uint w (start + 8 * n) 8 := by
  rw [← BitVec.toNat_inj, sumGroups_toNat, command, group, byteAt_toNat, byteAt_toNat]

/-! ## The complete groups -/

theorem groupCount_of_lt {len start : Nat} (short : len < start + 8) : groupCount len start = 0 := by
  rw [groupCount]
  split_ifs <;> omega

/-- A Word with a complete group has a final one, after the groups that are summed. -/
theorem groupCount_of_le {len start : Nat} (long : start + 8 ≤ len) :
    groupCount len start = (len - start) / 8 - 1 + 1 := by
  rw [groupCount, if_pos (by omega)]
  omega

/-! ## The result by the length of the Word -/

theorem checksum_of_length_le {w : BitSeq} (start : Nat) (short : w.length ≤ ckMinBits) :
    checksum w start = .notChecked :=
  if_pos short

theorem checksum_of_no_group {w : BitSeq} {start : Nat} (checked : ckMinBits < w.length)
    (no_group : groupCount w.length start = 0) : checksum w start = .invalid := by
  rw [checksum, checksumWith, if_neg (Nat.not_le.2 checked), no_group]

theorem checksum_of_final_group {w : BitSeq} {start n : Nat} (checked : ckMinBits < w.length)
    (groups : groupCount w.length start = n + 1) :
    checksum w start = if sumGroups w start (command w) n = group w start n then .valid else .invalid := by
  rw [checksum, checksumWith, if_neg (Nat.not_le.2 checked), groups]
  rfl

/-- What `ck_result` receives, for either start index: the bounds 17 and 16 of R216 and R217 are `start + 8`, the
length from which there is a group to compare with. -/
theorem encodeCk_checksum (w : BitSeq) (start : Nat) :
    encodeCk (checksum w start) =
      if w.length ≤ 8 then 0b00#2
      else if w.length < start + 8 then 0b10#2
      else if (uint w 0 8 + ∑ i ∈ Finset.range ((w.length - start) / 8 - 1), uint w (start + 8 * i) 8) % 256 =
          uint w (start + 8 * ((w.length - start) / 8 - 1)) 8 then 0b11#2
      else 0b10#2 := by
  split_ifs with short no_group sum_matches
  · rw [checksum_of_length_le start short, encodeCk]
  · rw [checksum_of_no_group (Nat.not_le.1 short) (groupCount_of_lt no_group), encodeCk]
  · rw [checksum_of_final_group (Nat.not_le.1 short) (groupCount_of_le (Nat.not_lt.1 no_group)),
      if_pos ((sumGroups_eq_group_iff ..).2 sum_matches), encodeCk]
  · rw [checksum_of_final_group (Nat.not_le.1 short) (groupCount_of_le (Nat.not_lt.1 no_group)),
      if_neg (mt (sumGroups_eq_group_iff ..).1 sum_matches), encodeCk]

/-! ## The operations -/

/-- Settles O31: `ck_result` alone is written, from the panel Word's groups at `P_START`. -/
theorem panelChecksumEffect : Obligations.PanelChecksumEffect := by
  intro s
  rw [exec_eq, after_cksumP, writeCk, encodeCk_checksum]
  rfl

/-- Settles O32: `ck_result` alone is written, from the keypad Word's groups at `K_START`. -/
theorem keypadChecksumEffect : Obligations.KeypadChecksumEffect := by
  intro s
  rw [exec_eq, after_cksumK, writeCk, encodeCk_checksum]
  rfl

end Sys2Proof.Machine
end

section
/-! PROOF. Family `44_system.md`: RESET and NOP (R240, R241), what a step can do (R241, R245), what no event writes (R243), and ticks that see no edge (R118 to R120). -/

namespace Sys2Proof.Machine

/-! ## NOP and RESET -/

theorem exec_nop (s : State) : exec .nop s = .next s := by
  rw [exec_eq, after_nop]

/-- Settles O39: NOP's meaning is the state itself. -/
theorem nopChangesNothing : Obligations.NopChangesNothing := exec_nop

theorem exec_reset (s : State) : exec .reset s = .next (resetRegisters s) := by
  rw [exec_eq, after_reset]

/-- The reset input suppresses every other event of its tick (R87, R120). -/
theorem tickEvents_of_rst {p : Pins} (rst : p.rst = true) (c q dd : Bool) : tickEvents p c q dd = [.reset] := by
  rw [tickEvents, if_pos rst]

/-- A resetting tick samples the lines and resets the registers. -/
theorem tick_of_rst {p : Pins} (rst : p.rst = true) (s : State) :
    tick p s = .next (resetRegisters (sampleLines p s)) := by
  rw [tick, tickEvents_of_rst rst, applyEvents_cons (exec_reset _), applyEvents_nil]

/-- Settles O36: both resets end in `resetRegisters`, which leaves `clk_q` as the tick sampled it. -/
theorem resetEffect : Obligations.ResetEffect := by
  refine ⟨fun s => ⟨_, exec_reset s, ?event⟩, fun p s rst => ⟨_, tick_of_rst rst s, ?pin⟩⟩
  case event => simp
  case pin => simp

/-! ## The step -/

theorem step_of_tick {s : State} {p : Pins} {rest : List Input} (h : s.inputs = .tick p :: rest) :
    step s = tick p { s with inputs := rest } := by
  rw [step, h]
  rfl

theorem step_of_no_input {s : State} (h : s.inputs = []) : step s = .next s := by
  rw [step, h]
  exact exec_nop s

theorem runEventWord_of_ok {w : EventWord} {i : Instr} (h : decode w = .ok i) (s : State) :
    runEventWord w s = exec i s := by
  rw [runEventWord, h]

theorem decodeTableWord_eq_some_iff (nbits w : Nat) (i : Instr) :
    decodeTableWord nbits w = some i ↔ decode (BitVec.ofNat 72 (w % 2 ^ nbits)) = .ok i := by
  rw [decodeTableWord]
  cases decode (BitVec.ofNat 72 (w % 2 ^ nbits)) with
  | ok j => simp
  | error e => simp

/-- A word placed next in line is the only stimulus its own step takes. -/
theorem step_withFetchWord (s : State) (nbits w : Nat) :
    step (s.withFetchWord nbits w) = runEventWord (BitVec.ofNat 72 (w % 2 ^ nbits)) s :=
  step_of_event rfl

/-- Settles O6, by the shape of the stimuli: an event word, a tick, a placed word, none. -/
theorem stepRunsTheNextEvent : Obligations.StepRunsTheNextEvent := by
  refine ⟨fun s w rest i next ok => ?event, fun _ _ _ => step_of_tick, fun s nbits w i ok => ?placed,
    fun _ => step_of_no_input⟩
  case event => rw [step_of_event next, runEventWord_of_ok ok]
  case placed => rw [step_withFetchWord, runEventWord_of_ok ((decodeTableWord_eq_some_iff ..).1 ok)]

/-- Everything a step that answers a next state can have done: it was idle, it ran the event word next in line, or
it ran the tick next in line. -/
theorem step_cases {s t : State} (h : step s = .next t) :
    (s.inputs = [] ∧ t = s) ∨
    (∃ w rest i, s.inputs = .event w :: rest ∧ decode w = .ok i ∧ t = after i { s with inputs := rest }) ∨
    (∃ p rest, s.inputs = .tick p :: rest ∧ tick p { s with inputs := rest } = .next t) := by
  match next : s.inputs with
  | [] =>
    rw [step_of_no_input next] at h
    exact .inl ⟨rfl, (Host.Outcome.next.inj h).symm⟩
  | .event w :: rest =>
    rw [step_of_event next] at h
    cases decoded : decode w with
    | ok i =>
      rw [runEventWord_of_ok decoded, exec_eq] at h
      exact .inr (.inl ⟨w, rest, i, rfl, decoded, (Host.Outcome.next.inj h).symm⟩)
    | error e =>
      rw [runEventWord_of_error decoded] at h
      cases h
  | .tick p :: rest =>
    rw [step_of_tick next] at h
    exact .inr (.inr ⟨p, rest, rfl, h⟩)

/-! ## Sequences of events -/

/-- A reflexive and transitive relation that every event of a list keeps holds across the whole list. -/
theorem applyEvents_rel {R : State → State → Prop} (refl : ∀ s, R s s) (trans : ∀ s t u, R s t → R t u → R s u)
    {is : List Instr} (event : ∀ i ∈ is, ∀ s, R s (after i s)) {s t : State} (h : applyEvents is s = .next t) :
    R s t := by
  induction is generalizing s with
  | nil =>
    rw [applyEvents_nil] at h
    obtain rfl := Host.Outcome.next.inj h
    exact refl s
  | cons i is ih =>
    rw [applyEvents_cons (exec_eq i s)] at h
    have first : R s (after i s) := event i List.mem_cons_self s
    have others : R (after i s) t := ih (fun j hj => event j (List.mem_cons_of_mem i hj)) h
    exact trans s _ t first others

/-! ## What no event writes -/

/-- From `s` to `t` all that is no register of an event-level context stays: the build parameters (R243), the
samples of the two lines (R48, R118) and the stimuli in line (log 2). -/
structure KeepsSurroundings (s t : State) : Prop where
  cfg : t.cfg = s.cfg
  clkQ : t.clkQ = s.clkQ
  clkSync : t.clkSync = s.clkSync
  dataSync : t.dataSync = s.dataSync
  inputs : t.inputs = s.inputs

theorem KeepsSurroundings.refl (s : State) : KeepsSurroundings s s := ⟨rfl, rfl, rfl, rfl, rfl⟩

theorem KeepsSurroundings.trans {s t u : State} (hst : KeepsSurroundings s t) (htu : KeepsSurroundings t u) :
    KeepsSurroundings s u :=
  ⟨htu.cfg.trans hst.cfg, htu.clkQ.trans hst.clkQ, htu.clkSync.trans hst.clkSync, htu.dataSync.trans hst.dataSync,
    htu.inputs.trans hst.inputs⟩

theorem SamplerWrites.keepsSurroundings {s t : State} (h : SamplerWrites s t) : KeepsSurroundings s t := by
  rw [h]; exact ⟨rfl, rfl, rfl, rfl, rfl⟩

theorem PollWrites.keepsSurroundings {s t : State} (h : PollWrites s t) : KeepsSurroundings s t := by
  rw [h.frame]; exact ⟨rfl, rfl, rfl, rfl, rfl⟩

/-- The Sampler and the poll context write their registers alone (R63), and of the environment's two operations
NOP writes nothing and RESET the registers of R62. -/
theorem keepsSurroundings_after (i : Instr) (s : State) : KeepsSurroundings s (after i s) := by
  cases i with
  | edgeR | edgeF => exact (samplerWrites_after s rfl).keepsSurroundings
  | poll | cksumP | cksumK => exact (pollWrites_after s rfl).keepsSurroundings
  | nop => exact .refl s
  | reset => exact ⟨resetRegisters_cfg s, resetRegisters_clkQ s, resetRegisters_clkSync s, resetRegisters_dataSync s,
      resetRegisters_inputs s⟩

/-- Whatever events a tick has, its own sampling is all it does to the surroundings. -/
theorem keepsSurroundings_of_tick {p : Pins} {s t : State} (h : tick p s = .next t) :
    KeepsSurroundings (sampleLines p s) t :=
  applyEvents_rel .refl (fun _ _ _ => .trans) (fun i _ => keepsSurroundings_after i) h

/-- Settles O9, by what the step did: no event writes the parameters, and neither does the sampling of a tick. -/
theorem parametersNeverChange : Obligations.ParametersNeverChange := by
  intro s t h
  obtain ⟨_, rfl⟩ | ⟨_, rest, i, _, _, rfl⟩ | ⟨p, rest, _, ticked⟩ := step_cases h
  · rfl
  · exact (keepsSurroundings_after i { s with inputs := rest }).cfg
  · rw [(keepsSurroundings_of_tick ticked).cfg, sampleLines_cfg]

/-! ## Ticks that see no edge -/

/-- Every tick, whether enabled or resetting, leaves in `clk_q` the clock level it saw (R119). -/
theorem clkQ_of_tick {p : Pins} {s t : State} (h : tick p s = .next t) : t.clkQ = (shiftSync p.kbClk s.clkSync).1 := by
  rw [(keepsSurroundings_of_tick h).clkQ, sampleLines_clkQ]

/-- A clock level equal to its previous sample is no edge, whatever `samp_en` is (R119). -/
theorem edgeEvents_of_same_level (p : Pins) (c dd : Bool) : edgeEvents p c c dd = [] := by
  rw [edgeEvents, bne_self_eq_false, Bool.and_false]
  rfl

theorem contextOf_of_mem_pollEvents {p : Pins} {i : Instr} (h : i ∈ pollEvents p) : contextOf i = .poll := by
  rw [pollEvents] at h
  split at h
  · rw [List.mem_singleton.1 h]; rfl
  · cases h

theorem contextOf_of_mem_ckEvents {p : Pins} {i : Instr} (h : i ∈ ckEvents p) : contextOf i = .poll := by
  rw [ckEvents] at h
  split at h
  · rw [List.mem_singleton.1 h]
    split <;> rfl
  · cases h

/-- The events of a tick that does not reset: NOP, or those of the edge detector and of the two requests (R120). -/
theorem mem_tickEvents {p : Pins} {c q dd : Bool} {i : Instr} (rst : p.rst = false) (h : i ∈ tickEvents p c q dd) :
    i = .nop ∨ i ∈ edgeEvents p c q dd ∨ i ∈ pollEvents p ∨ i ∈ ckEvents p := by
  rw [tickEvents, if_neg (Bool.eq_false_iff.1 rst)] at h
  split at h
  · exact .inl (List.mem_singleton.1 h)
  · rw [List.mem_append, List.mem_append, or_assoc] at h
    exact .inr h

theorem PollWrites.refl (s : State) : PollWrites s s := ⟨rfl, .inl rfl, .inl rfl⟩

/-- After its sampling, a tick that sees the level already in `clk_q` and does not reset moves registers of the
poll context alone. -/
theorem pollWrites_of_tick {p : Pins} {s t : State} (same : (shiftSync p.kbClk s.clkSync).1 = s.clkQ)
    (rst : p.rst = false) (h : tick p s = .next t) : PollWrites (sampleLines p s) t := by
  rw [tick, same] at h
  refine applyEvents_rel .refl (fun _ _ _ => .trans) (fun i hi u => ?_) h
  obtain rfl | edge | poll | ck := mem_tickEvents rst hi
  · exact .refl u
  · rw [edgeEvents_of_same_level] at edge; cases edge
  · exact pollWrites_after u (contextOf_of_mem_pollEvents poll)
  · exact pollWrites_after u (contextOf_of_mem_ckEvents ck)

/-- Settles O45: the first tick leaves its clock level in `clk_q`, so the second has no event of the Sampler, and
of the Sampler's registers here the poll context can only clear `p_buf`. -/
theorem enablingMakesNoFalseEdge : Obligations.EnablingMakesNoFalseEdge := by
  intro p p' s s1 s2 first level rst second
  have same : (shiftSync p'.kbClk s1.clkSync).1 = s1.clkQ := level.trans (clkQ_of_tick first).symm
  obtain ⟨frame, pBuf, _⟩ := pollWrites_of_tick same rst second
  refine ⟨?_, ?_, ?_, pBuf⟩
  · exact (congrArg State.lastEdgeUs frame).trans (sampleLines_lastEdgeUs p' s1)
  · exact (congrArg State.intervalUs frame).trans (sampleLines_intervalUs p' s1)
  · exact (congrArg State.kBuf frame).trans (sampleLines_kBuf p' s1)

end Sys2Proof.Machine
end

section
/-! PROOF. Family `49_downstream_decoders.md`: the flags of a status Word (R265) and those its message emits (R252), the zone banks (R256), and the messages of accepted keypad Words (R259, R261). -/

namespace Sys2Proof.Machine

/-! ## The flags of a status Word -/

/-- A write inside a sequence is seen by the reads of its own index alone. -/
theorem bitAt_set {w : BitSeq} {i : Nat} (inside : i < w.length) (b : Bool) (j : Nat) :
    bitAt (w.set i b) j = if i = j then b else bitAt w j := by
  rw [bitAt, bitAt, List.getD_eq_getElem?_getD, List.getD_eq_getElem?_getD, List.getElem?_set, if_pos inside,
    apply_ite (Option.getD · false), Option.getD_some]

/-- The flags of a status Word after a write to one of its bits. -/
theorem statusFlags_set {w : BitSeq} {i : Nat} (inside : i < w.length) (b : Bool) (pf : Nat) :
    statusFlags pf (w.set i b) =
      { ready := if i = 16 then b else bitAt w 16
        error := if i = 12 then b else bitAt w 12
        bypass := if i = 13 then b else bitAt w 13
        memory := if i = 14 then b else bitAt w 14
        armed := if i = 15 then b else bitAt w 15
        program := if i = 17 then b else bitAt w 17
        powerFail := if i = pf then b else bitAt w pf } := by
  simp only [statusFlags, bitAt_set inside]

/-- Settles O49: the seven indices differ, so each write reaches the test of its own flag alone. -/
theorem statusFlagsAreIndependent : Obligations.StatusFlagsAreIndependent := by
  intro w long
  have flip (i : Nat) (read : i < 30) := statusFlags_set (read.trans_le long) (!bitAt w i) 29
  exact ⟨flip 16 (by decide), flip 12 (by decide), flip 13 (by decide), flip 14 (by decide), flip 15 (by decide),
    flip 17 (by decide), flip 29 (by decide)⟩

/-! ## The flags a status message emits -/

/-- The flag record read by name: whether a status message carries the name (R252). -/
def StatusFlags.carries (f : StatusFlags) : StatusFlag → Bool
  | .ready => f.ready
  | .notReady => !f.ready
  | .error => f.error
  | .bypass => f.bypass
  | .memory => f.memory
  | .armed => f.armed
  | .program => f.program
  | .powerFail => f.powerFail

/-- The names a status message carries only when their flag is set (R252). -/
def optionalStatusNames : List StatusFlag := [.error, .bypass, .memory, .armed, .program, .powerFail]

/-- Every name a status message can carry, in the order of the message. -/
def statusNames : List StatusFlag := [.ready, .notReady] ++ optionalStatusNames

theorem mem_statusNames (a : StatusFlag) : a ∈ statusNames := by cases a <;> decide

theorem statusNames_nodup : statusNames.Nodup := by decide

/-- Selecting values by a Boolean kept beside each of them is filtering by that Boolean. -/
theorem map_snd_filter_fst {α : Type} (p : α → Bool) (l : List α) :
    ((l.map fun a => (p a, a)).filter (fun x : Bool × α => x.1)).map (fun x => x.2) = l.filter p := by
  rw [List.filter_map, List.map_map]
  exact List.map_id _

/-- Of `ready` and `notReady` a message carries exactly one. -/
theorem filter_ready_notReady (f : StatusFlags) :
    [.ready, .notReady].filter f.carries = [if f.ready then .ready else .notReady] := by
  cases ready : f.ready <;> simp [StatusFlags.carries, ready]

/-- The emitted list is the selection of the carried names from all names. -/
theorem emittedFlags_eq_filter (f : StatusFlags) : emittedFlags f = statusNames.filter f.carries :=
  calc emittedFlags f
    _ = (if f.ready then .ready else .notReady) :: optionalStatusNames.filter f.carries :=
        congrArg (List.cons _) (map_snd_filter_fst f.carries optionalStatusNames)
    _ = [.ready, .notReady].filter f.carries ++ optionalStatusNames.filter f.carries := by
        rw [filter_ready_notReady, List.singleton_append]
    _ = statusNames.filter f.carries := (List.filter_append _ _).symm

theorem mem_emittedFlags (f : StatusFlags) (a : StatusFlag) : a ∈ emittedFlags f ↔ f.carries a = true := by
  rw [emittedFlags_eq_filter, List.mem_filter, and_iff_right (mem_statusNames a)]

theorem emittedFlags_nodup (f : StatusFlags) : (emittedFlags f).Nodup := by
  rw [emittedFlags_eq_filter]
  exact statusNames_nodup.filter _

theorem panelPlan_status (pf : Nat) (w : BitSeq) :
    panelPlan pf 0x05#8 w = .status (emittedFlags (statusFlags pf w)) := if_pos rfl

/-- Settles O51: membership name by name, and the stamp of `stampPanel` on the status command. -/
theorem statusMessageEmitsSetFlags : Obligations.StatusMessageEmitsSetFlags := by
  refine ⟨fun w => ?message, fun w m s is_status fresh => ?stamp⟩
  case message =>
    have emitted := mem_emittedFlags (statusFlags 29 w)
    have not_ready : .notReady ∈ emittedFlags (statusFlags 29 w) ↔ bitAt w 16 = false :=
      (emitted .notReady).trans (Bool.not_eq_true' _).to_iff
    exact ⟨_, panelPlan_status 29 w, emittedFlags_nodup _, emitted .ready, not_ready, emitted .error,
      emitted .bypass, emitted .memory, emitted .armed, emitted .program, emitted .powerFail⟩
  case stamp =>
    have nonzero : command w ≠ 0 := by rw [is_status]; decide
    rw [acceptPanel_of_accepted m (not_or.2 ⟨nonzero, fresh⟩)]
    exact ⟨is_status, if_pos is_status⟩

/-! ## The zone banks -/

/-- Bit `j` of a slice's value is the `j`-th bit of the slice from its end (R12). -/
theorem uint_testBit (w : BitSeq) (off : Nat) {n j : Nat} (inside : j < n) :
    (uint w off n).testBit j = bitAt w (off + (n - 1 - j)) := by
  induction n generalizing j with
  | zero => exact absurd inside (Nat.not_lt_zero j)
  | succ n ih =>
    have last_bit : uint w off (n + 1) = Nat.bit (bitAt w (off + n)) (uint w off n) := (Nat.bit_val _ _).symm
    rw [last_bit]
    cases j with
    | zero => exact Nat.testBit_bit_zero _ _
    | succ j =>
      rw [Nat.testBit_bit_succ, ih (Nat.lt_of_succ_lt_succ inside), Nat.add_sub_cancel, Nat.sub_sub,
        Nat.add_comm 1 j]

/-- The byte in `zones` holds the whole of the 8-bit field, so no bit is lost to it. -/
theorem zones_eq_testBit (w : BitSeq) : zones w = (List.range 8).map fun j => (field w 41 8).testBit j := by
  refine List.map_congr_left fun j inside => ?_
  rw [BitVec.getLsbD_ofNat, decide_eq_true (List.mem_range.1 inside), Bool.true_and]

/-- Zone `j` is bit `48 - j` of the Word (R256). -/
theorem zones_eq_bitAt (w : BitSeq) : zones w = (List.range 8).map fun j => bitAt w (41 + (7 - j)) := by
  rw [zones_eq_testBit]
  exact List.map_congr_left fun j inside => uint_testBit w 41 (List.mem_range.1 inside)

/-- Settles O50: the bank of each command is the branch of `panelPlan` it selects. -/
theorem zonesAreTheBitmapBackwards : Obligations.ZonesAreTheBitmapBackwards :=
  ⟨zones_eq_bitAt, zones_eq_testBit, fun _ _ => ⟨rfl, rfl, rfl, rfl⟩⟩

/-! ## The messages of keypad Words -/

theorem keypadMessage_of_zero_bit {w : BitSeq} (t : KeypadTable) (zero_bit : false ∈ w) :
    keypadMessage t w = some (keypadPlan t w) :=
  if_pos ((hasZero_iff w).2 zero_bit)

/-- The labels of a command byte by name: each depends on its own code alone (R261). -/
theorem mem_alarmLabels_iff (t : KeypadTable) (c : Byte) :
    (.fire ∈ alarmLabels t c ↔ c = t.fireCmd) ∧ (.auxiliary ∈ alarmLabels t c ↔ c = t.auxCmd) ∧
      (.panic ∈ alarmLabels t c ↔ c = t.panicCmd) := by
  simp [mem_alarmLabels, eq_comm]

/-- Settles O53: the message is `keypadPlan`, whose second-byte label tests the sentinel and whose alarm labels
do not. -/
theorem keypadMessageBranches : Obligations.KeypadMessageBranches := by
  intro t w zero_bit
  exact ⟨keypadPlan t w, keypadMessage_of_zero_bit t zero_bit, rfl, fun sentinel => if_pos sentinel,
    fun other => if_neg other, mem_alarmLabels_iff t (command w)⟩

end Sys2Proof.Machine
end

section
/-! PROOF. Family `60_exceptions.md`: the only stop of a step is an event word that spells no operation (R280, R303). -/

namespace Sys2Proof.Machine

/-- No event of a sequence stops it: each hands the state it leaves to the next (R85, R280). -/
theorem exists_applyEvents_eq_next (is : List Instr) (s : State) : ∃ t, applyEvents is s = .next t := by
  induction is generalizing s with
  | nil => exact ⟨s, applyEvents_nil s⟩
  | cons i is ih =>
    rw [applyEvents_cons (exec_eq i s)]
    exact ih (after i s)

theorem exists_tick_eq_next (p : Pins) (s : State) : ∃ t, tick p s = .next t :=
  exists_applyEvents_eq_next _ (sampleLines p s)

/-- Settles O7, by the next stimulus: with none, at a tick and at a word that decodes, the step answers a state;
a word that does not decode is the one it refuses. -/
theorem stepStopsOnlyOnInvalidWords : Obligations.StepStopsOnlyOnInvalidWords := by
  refine ⟨fun i s => ⟨after i s, exec_eq i s⟩, fun s => ?_⟩
  match next : s.inputs with
  | [] => exact .inl ⟨s, step_of_no_input next⟩
  | .tick p :: rest =>
    rw [step_of_tick next]
    exact .inl (exists_tick_eq_next p _)
  | .event w :: rest =>
    rw [step_of_event next]
    cases decoded : decode w with
    | ok i => exact .inl ⟨_, (runEventWord_of_ok decoded _).trans (exec_eq i _)⟩
    | error e => exact .inr ⟨w, rest, e, rfl, decoded, runEventWord_of_error decoded _⟩

end Sys2Proof.Machine
end

section
/-! PROOF. Family `other`, encoding: fields to words and back (R110), the bits each operation uses (R111) and words written out from the opcode table (O1, O2, O5). -/

namespace Sys2Proof

/-! ## Fields and words -/

theorem EventFields.toWord_inj {f g : EventFields} : f.toWord = g.toWord ↔ f = g := by
  rw [toWord, toWord, bitVec_append_eq_iff, bitVec_append_eq_iff, bitVec_append_eq_iff, bitVec_append_eq_iff,
    BitVec.ofBool_eq_iff_eq]
  obtain ⟨op, d, z, tMs, tUs⟩ := f
  obtain ⟨op', d', z', tMs', tUs'⟩ := g
  simp only [mk.injEq, and_assoc]

/-- The header and the two time fields are all of the word (R110). -/
theorem header_append_times (w : EventWord) : w.extractLsb' 64 8 ++ w.extractLsb' 32 32 ++ w.extractLsb' 0 32 = w := by
  have header_tMs : w.extractLsb' 64 8 ++ w.extractLsb' 32 32 = w.extractLsb' 32 40 :=
    BitVec.extractLsb'_append_extractLsb'_eq_extractLsb' rfl
  rw [header_tMs]
  exact BitVec.extractLsb'_append_extractLsb'

theorem EventFields.toWord_ofWord (w : EventWord) : (ofWord w).toWord = w := by
  calc (ofWord w).toWord
    _ = (ofWord w).header ++ w.extractLsb' 32 32 ++ w.extractLsb' 0 32 := rfl
    _ = w := by rw [header_ofWord, header_append_times]

theorem EventFields.ofWord_toWord (f : EventFields) : ofWord f.toWord = f :=
  toWord_inj.1 (toWord_ofWord f.toWord)

theorem decode_encode (i : Instr) : decode (encode i) = .ok i := by
  rw [decode, encode, EventFields.ofWord_toWord]
  exact (fieldsSpellIt i).2

/-- Settles O1: the fields written for an operation spell it, and the word keeps the fields. -/
theorem decodeInvertsEncode : Obligations.DecodeInvertsEncode :=
  fun i => ⟨(fieldsSpellIt i).1, decode_encode i⟩

/-! ## The used bits -/

/-- The fields of `f` at the bits that are 1 in `m`. -/
def EventFields.masked (f m : EventFields) : EventFields where
  op := f.op &&& m.op
  d := f.d && m.d
  z := f.z &&& m.z
  tMs := f.tMs &&& m.tMs
  tUs := f.tUs &&& m.tUs

theorem EventFields.toWord_masked (f m : EventFields) : (f.masked m).toWord = f.toWord &&& m.toWord := by
  rw [toWord, toWord, toWord, BitVec.and_append, BitVec.and_append, BitVec.and_append, BitVec.and_append,
    BitVec.ofBool_and_ofBool]
  rfl

/-- The whole header is used, and of the time fields those given (R110, R111). -/
def EventFields.headerAnd (tMs tUs : Word32) : EventFields := ⟨BitVec.allOnes 3, true, BitVec.allOnes 4, tMs, tUs⟩

/-- The fields an operation uses, as a mask: the column "operands used" of R111. -/
def Instr.usedFields : Instr → EventFields
  | .nop => .headerAnd 0 0
  | .edgeR _ _ => .headerAnd 0 (BitVec.allOnes 32)
  | .edgeF _ _ => .headerAnd 0 (BitVec.allOnes 32)
  | .poll _ _ => .headerAnd (BitVec.allOnes 32) (BitVec.allOnes 32)
  | .cksumP => .headerAnd 0 0
  | .cksumK => .headerAnd 0 0
  | .reset => .headerAnd 0 0

/-- The three masks, written out. -/
theorem EventFields.headerAnd_toWord :
    (headerAnd 0 0).toWord = 0xFF0000000000000000#72 ∧
    (headerAnd 0 (BitVec.allOnes 32)).toWord = 0xFF00000000FFFFFFFF#72 ∧
    (headerAnd (BitVec.allOnes 32) (BitVec.allOnes 32)).toWord = 0xFFFFFFFFFFFFFFFFFF#72 := by decide

theorem usedBits_eq (i : Instr) : usedBits i = i.usedFields.toWord := by
  obtain ⟨no_time, tUs_only, both⟩ := EventFields.headerAnd_toWord
  cases i with
  | nop | cksumP | cksumK | reset => exact no_time.symm
  | edgeR | edgeF => exact tUs_only.symm
  | poll => exact both.symm

/-- A mask that uses the whole header compares it whole. -/
theorem EventFields.masked_headerAnd_eq_iff (f g : EventFields) (tMs tUs : Word32) :
    f.masked (.headerAnd tMs tUs) = g ↔ f.header = g.header ∧ f.tMs &&& tMs = g.tMs ∧ f.tUs &&& tUs = g.tUs := by
  obtain ⟨op, d, z, ms, us⟩ := g
  simp only [masked, headerAnd, header_eq_iff, BitVec.and_allOnes, Bool.and_true, mk.injEq, and_assoc]

/-- The fields spell an operation exactly when they agree with those written for it wherever it uses them. -/
theorem EventFields.masked_usedFields_eq_iff (f : EventFields) (i : Instr) :
    f.masked i.usedFields = i.fields ↔ f.Spells i := by
  have spells : f.Spells i ↔ f.header = i.fields.header ∧ f.timesSpell i :=
    ⟨fun h => ⟨h.header, h.times⟩, fun ⟨header, times⟩ => ⟨header, times⟩⟩
  rw [spells]
  cases i with
  | nop | cksumP | cksumK | reset =>
    simp only [Instr.usedFields, masked_headerAnd_eq_iff, BitVec.ofNat_eq_ofNat, BitVec.and_zero]
    simp only [Instr.fields, timesSpell, and_true]
  | edgeR | edgeF =>
    simp only [Instr.usedFields, masked_headerAnd_eq_iff, BitVec.ofNat_eq_ofNat, BitVec.and_zero, BitVec.and_allOnes]
    simp only [Instr.fields, timesSpell, true_and]
  | poll =>
    simp only [Instr.usedFields, masked_headerAnd_eq_iff, BitVec.and_allOnes]
    simp only [Instr.fields, timesSpell, and_comm]

/-- Settles O2: on fields, masking with the used bits leaves what the decoder reads. -/
theorem decodeReadsExactlyTheUsedBits : Obligations.DecodeReadsExactlyTheUsedBits := by
  intro w i
  calc decode w = .ok i
    _ ↔ (EventFields.ofWord w).Spells i := EventFields.decode_eq_ok_iff _ i
    _ ↔ (EventFields.ofWord w).masked i.usedFields = i.fields := (EventFields.masked_usedFields_eq_iff _ i).symm
    _ ↔ w &&& usedBits i = encode i := by
        rw [← EventFields.toWord_inj, EventFields.toWord_masked, EventFields.toWord_ofWord, usedBits_eq, encode]

/-! ## Words of the opcode table -/

/-- Settles O5: five of the words are the encodings of their operations; the word of the NOP differs from its encoding
in the time fields, which it does not use. -/
theorem wordsOfTheOpcodeTableDecode : Obligations.WordsOfTheOpcodeTableDecode := by
  have written (w : EventWord) (i : Instr) (h : w &&& usedBits i = encode i) : decode w = .ok i :=
    (decodeReadsExactlyTheUsedBits w i).2 h
  exact ⟨written _ _ rfl, written _ _ rfl, written _ _ rfl, written _ _ rfl, written _ _ rfl, written _ _ rfl,
    written _ _ rfl⟩

end Sys2Proof
end

section
/-! PROOF. Family `other`, the machine as a whole: launch and reset (O12, O37, O38), one stimulus a step (O8), and the invariants of 10_state.md section 9 at reset and across every step (O41, O42). -/

namespace Sys2Proof.Machine

/-! ## Launch and reset -/

theorem ofParams_eq_none {p : Params}
    (illegal : p.maxBits < 8 ∨ p.wbiUs < p.guardUs ∨ 2 ^ 32 ≤ p.wbiUs + p.guardUs) : Config.ofParams p = none :=
  dif_neg (by omega)

/-- A legal parameter set is built as written. -/
theorem exists_ofParams_eq_some {p : Params}
    (legal : 8 ≤ p.maxBits ∧ p.guardUs ≤ p.wbiUs ∧ p.wbiUs + p.guardUs < 2 ^ 32) :
    ∃ c : Config, c.params = p ∧ Config.ofParams p = some c :=
  ⟨_, rfl, dif_pos legal⟩

/-- Settles O12: `launch` answers by whether the parameters make a configuration. -/
theorem launchRefusesIllegalParameters : Obligations.LaunchRefusesIllegalParameters := by
  refine fun p => ⟨fun illegal => ?_, fun legal => ?_⟩
  · rw [launch, ofParams_eq_none illegal]
  · obtain ⟨c, params, built⟩ := exists_ofParams_eq_some legal
    exact ⟨c, params, by rw [launch, built]⟩

/-- Settles O37: what `resetRegisters` does not write is the configuration, the samples of the lines and the stimuli,
and a resetting tick has sampled the lines before. -/
theorem resetLeavesOnlyTheLines : Obligations.ResetLeavesOnlyTheLines := by
  refine ⟨fun s => ?event, fun p s rst => ?pin⟩
  case event => rw [exec_reset]; rfl
  case pin => rw [tick_of_rst rst]; rfl

/-- Settles O38: the registers are those of `resetWith`, and RESET writes each output register. -/
theorem resetStateIsEmpty : Obligations.ResetStateIsEmpty :=
  ⟨rfl, rfl, rfl, rfl, rfl, rfl, rfl, rfl, rfl, rfl, rfl, rfl, rfl, rfl, rfl, rfl, fun s => ⟨_, exec_reset s, rfl⟩⟩

/-! ## One stimulus a step -/

/-- Settles O8, by what the step did: it takes the first stimulus off the line before anything runs, and neither an
event nor the sampling of a tick writes the line. -/
theorem stepConsumesOneStimulus : Obligations.StepConsumesOneStimulus := by
  intro s t h
  obtain ⟨none_left, rfl⟩ | ⟨_, rest, i, next, _, rfl⟩ | ⟨p, rest, next, ticked⟩ := step_cases h
  · rw [none_left, List.tail_nil]
  · rw [next, (keepsSurroundings_after i { s with inputs := rest }).inputs, List.tail_cons]
  · rw [next, (keepsSurroundings_of_tick ticked).inputs, sampleLines_inputs, List.tail_cons]

/-! ## The invariants at reset -/

/-- The two bits of R168, read back from the status. -/
theorem statusOf_getLsbD (kcmd pcmd : Byte) :
    (statusOf kcmd pcmd).getLsbD 0 = (pcmd != 0) ∧ (statusOf kcmd pcmd).getLsbD 1 = (kcmd != 0) := by
  rw [statusOf]
  generalize (kcmd != 0) = k
  generalize (pcmd != 0) = p
  revert k p
  decide

/-- The code `0b01` encodes no result (R47, R117). -/
theorem encodeCk_ne_unused (r : CkOutcome) : encodeCk r ≠ 0b01#2 := by
  cases r <;> decide

theorem good_resetWith (c : Config) : (State.resetWith c).Good where
  memory := Memory.wf_resetWith c
  panelWord := .inl rfl
  statusPanel := (statusOf_getLsbD 0 0).1
  statusKeypad := (statusOf_getLsbD 0 0).2
  prevPanel := .inl rfl
  prevKeypad := .inl rfl
  result := encodeCk_ne_unused .notChecked
  clkChain := List.length_replicate
  dataChain := List.length_replicate

/-- Settles O41, for the configuration the block was built with. -/
theorem resetStateIsGood : Obligations.ResetStateIsGood := good_resetWith Config.build

/-! ## The invariants across an operation -/

/-- The chains of flip-flops keep the lengths the invariants give them when the surroundings are kept. -/
theorem State.Good.chains {s t : State} (good : s.Good) (kept : KeepsSurroundings s t) :
    t.clkSync.length = t.cfg.syncStages ∧ t.dataSync.length = t.cfg.syncStages := by
  rw [kept.clkSync, kept.dataSync, kept.cfg]
  exact ⟨good.clkChain, good.dataChain⟩

/-- A Sampler operation writes no register that an invariant beside the capacities speaks of. -/
theorem State.Good.of_samplerWrites {s t : State} (good : s.Good) (writes : SamplerWrites s t)
    (memory : Memory.wf t = true) : t.Good where
  memory := memory
  panelWord := by rw [writes]; exact good.panelWord
  statusPanel := by rw [writes]; exact good.statusPanel
  statusKeypad := by rw [writes]; exact good.statusKeypad
  prevPanel := by rw [writes]; exact good.prevPanel
  prevKeypad := by rw [writes]; exact good.prevKeypad
  result := by rw [writes]; exact good.result
  clkChain := (good.chains writes.keepsSurroundings).1
  dataChain := (good.chains writes.keepsSurroundings).2

theorem State.Good.writeCk {s : State} (good : s.Good) (r : CkOutcome) : (writeCk r s).Good :=
  { good with result := encodeCk_ne_unused r }

/-- A POLL that does not frame clears the two codes together with the status (R161, R169). -/
theorem State.Good.noWord_cleared {s : State} (good : s.Good) (m : Word32) :
    (noWord (driveLed m (clearCodes s))).Good :=
  { good with statusPanel := (statusOf_getLsbD 0 0).1, statusKeypad := (statusOf_getLsbD 0 0).2 }

/-- What a POLL frames has the 8 bits the framing test asked for (R164), and what it accepts has passed the test the
last accepted Words are held to (R190, R193). -/
theorem State.Good.frameWords {s : State} (good : s.Good) (enough : 8 ≤ s.pBuf.length) (m : Word32) :
    (frameWords m s).Good where
  memory :=
    Memory.wf_judgeKeypad m (Memory.wf_judgePanel m (Memory.wf_takeKeypad (Memory.wf_takePanel good.memory)))
  panelWord := by rw [frameWords_eq]; exact .inr enough
  statusPanel := (statusOf_getLsbD _ _).1
  statusKeypad := (statusOf_getLsbD _ _).2
  prevPanel := by
    rw [frameWords_eq]
    dsimp only
    split_ifs with accepted
    · exact .inr ⟨enough, accepted.1⟩
    · exact good.prevPanel
  prevKeypad := by
    rw [frameWords_eq]
    dsimp only
    split_ifs with accepted
    · exact .inr accepted
    · exact good.prevKeypad
  result := by rw [frameWords_eq]; exact good.result
  clkChain := (good.chains (pollWrites_frameWords m s).keepsSurroundings).1
  dataChain := (good.chains (pollWrites_frameWords m s).keepsSurroundings).2

/-- RESET empties every register an invariant speaks of but the chains, which it leaves (R62). -/
theorem State.Good.resetRegisters {s : State} (good : s.Good) : (resetRegisters s).Good :=
  { good_resetWith s.cfg with clkChain := good.clkChain, dataChain := good.dataChain }

/-- A POLL that frames writes the status itself, so it may as well find it cleared. -/
theorem frameWords_noWord (m : Word32) (s : State) : frameWords m (noWord s) = frameWords m s := by
  rw [frameWords_eq, frameWords_eq]
  rfl

theorem State.Good.pollOnce {s : State} (good : s.Good) (m : Word32) : (pollOnce m s).Good := by
  have cleared := good.noWord_cleared m
  cases ready : framingReady s with
  | false => rw [pollOnce_of_not_ready ready]; exact cleared
  | true =>
    rw [pollOnce_of_ready ready, ← frameWords_noWord]
    exact cleared.frameWords ((framingReady_iff s).1 ready).2 m

/-- Every operation keeps the invariants. -/
theorem State.Good.after {s : State} (good : s.Good) (i : Instr) : (after i s).Good := by
  cases i with
  | nop => exact good
  | edgeR d t =>
    have memory := Memory.wf_appendPanel d (Memory.wf_edgeTiming t good.memory)
    exact good.of_samplerWrites (samplerWrites_after s rfl) memory
  | edgeF d t =>
    have memory := Memory.wf_appendKeypad d (Memory.wf_edgeTiming t good.memory)
    exact good.of_samplerWrites (samplerWrites_after s rfl) memory
  | poll _ m => exact good.pollOnce m
  | cksumP => exact good.writeCk _
  | cksumK => exact good.writeCk _
  | reset => exact good.resetRegisters

/-! ## The invariants across a step -/

/-- A sample goes into each chain and one comes out (R118). -/
theorem State.Good.sampleLines {s : State} (good : s.Good) (p : Pins) : (sampleLines p s).Good :=
  { good with
    clkChain := (shiftSync_length p.kbClk s.clkSync).trans good.clkChain
    dataChain := (shiftSync_length p.kbData s.dataSync).trans good.dataChain }

theorem State.Good.tick {s t : State} (good : s.Good) {p : Pins} (h : tick p s = .next t) : t.Good :=
  applyEvents_rel (R := fun s t => s.Good → t.Good) (fun _ => id) (fun _ _ _ first second => second ∘ first)
    (fun i _ _ good => good.after i) h (good.sampleLines p)

/-- The stimuli are no register, so no invariant speaks of them (log 2). -/
theorem State.Good.withInputs {s : State} (good : s.Good) (rest : List Input) : { s with inputs := rest }.Good :=
  { good with }

/-- Settles O42, by what the step did: nothing, one operation, or a sample of the lines and a list of operations. -/
theorem stepKeepsGood : Obligations.StepKeepsGood := by
  intro s t good h
  obtain ⟨_, rfl⟩ | ⟨_, rest, i, _, _, rfl⟩ | ⟨p, rest, _, ticked⟩ := step_cases h
  · exact good
  · exact (good.withInputs rest).after i
  · exact (good.withInputs rest).tick ticked

end Sys2Proof.Machine
end

section
/-! PROOF. Family `other`, the Sampler: which bits an edge stores (O16) and what the two buffers collect from a list of events (O18, O19). -/

namespace Sys2Proof.Machine

/-! ## Edges bit by bit -/

/-- The bits of a buffer after an append: none but the one at the old length is touched, and with room that one is
`d` and the buffer one longer (R92). -/
theorem append_stores_one_bit (cap : Nat) (w : BitSeq) (d : Bool) :
    (∀ j, j ≠ w.length → bitAt (append cap w d) j = bitAt w j) ∧
    (w.length < cap → bitAt (append cap w d) w.length = d ∧ (append cap w d).length = w.length + 1) := by
  by_cases room : w.length < cap
  · rw [append_of_lt d room]
    refine ⟨fun j other => ?_, fun _ => ⟨?_, List.length_append⟩⟩
    · rcases other.lt_or_gt with inside | beyond
      · exact bitAt_append_left inside
      · rw [bitAt_of_ge (by rw [List.length_append]; exact beyond), bitAt_of_ge beyond.le]
    · rw [bitAt_append_right le_rfl, Nat.sub_self]; rfl
  · rw [append_of_ge d (Nat.le_of_not_lt room)]
    exact ⟨fun _ _ => rfl, fun h => absurd h room⟩

/-- Settles O16: the role's buffer changes by its append alone, a Sampler operation writes no Word, and without a
boundary the timing part writes neither `k_buf` nor `k_pend`. -/
theorem edgeStoresOneBit : Obligations.EdgeStoresOneBit := by
  refine ⟨fun d t s s' h => ?rising, fun d t s s' h within => ?falling⟩
  case rising =>
    rw [exec_edgeR] at h
    obtain rfl := Host.Outcome.next.inj h
    obtain ⟨other_bits, stored⟩ := append_stores_one_bit s.cfg.maxBits s.pBuf d
    have pBuf : (appendPanel d (edgeTiming t s)).pBuf = append s.cfg.maxBits s.pBuf d := by
      rw [appendPanel_pBuf, edgeTiming_cfg, edgeTiming_pBuf]
    rw [pBuf]
    refine ⟨other_bits, stored, fun within j => ?_, fun j => ?_⟩
    · rw [edgeTiming_of_not_boundary within]; exact ⟨rfl, rfl⟩
    · rw [edgeTiming_eq]; exact ⟨rfl, rfl, rfl, rfl⟩
  case falling =>
    rw [exec_edgeF, edgeTiming_of_not_boundary within] at h
    obtain rfl := Host.Outcome.next.inj h
    obtain ⟨other_bits, stored⟩ := append_stores_one_bit s.cfg.maxBits s.kBuf d
    exact ⟨other_bits, stored, fun j => ⟨rfl, rfl, rfl, rfl, rfl, rfl⟩⟩

/-! ## Sequences of events -/

/-- Appending to a buffer already cut at its capacity is appending and cutting once. -/
theorem take_append_take (cap : Nat) (u v : BitSeq) : (u.take cap ++ v).take cap = (u ++ v).take cap := by
  rcases Nat.le_total u.length cap with short | long
  · rw [List.take_of_length_le short]
  · rw [List.take_append_of_le_length long, List.take_append_of_le_length (List.length_take_of_le long).ge,
      List.take_take, Nat.min_self]

/-- A buffer within its capacity that takes no bit, in the form of the collected buffers. -/
theorem eq_take_append_nil {cap : Nat} {w : BitSeq} (room : w.length ≤ cap) : w = (w ++ []).take cap := by
  rw [List.append_nil, List.take_of_length_le room]

/-- A buffer that every event of a list extends by that event's bits and cuts at the capacity holds, after the whole
list, the bits of all events in order, cut once. `P` is what the rest of the list needs of the state. -/
theorem applyEvents_collects {buf : State → BitSeq} {bits : List Instr → BitSeq} {P : State → List Instr → Prop}
    (bits_nil : bits [] = []) (bits_cons : ∀ i is, bits (i :: is) = bits [i] ++ bits is)
    (event : ∀ i is s, P s (i :: is) → (buf s).length ≤ s.cfg.maxBits →
      P (after i s) is ∧ buf (after i s) = (buf s ++ bits [i]).take s.cfg.maxBits)
    (es : List Instr) (s : State) (start : P s es) (room : (buf s).length ≤ s.cfg.maxBits) :
    ∃ t, applyEvents es s = .next t ∧ P t [] ∧ buf t = (buf s ++ bits es).take s.cfg.maxBits := by
  induction es generalizing s with
  | nil => exact ⟨s, applyEvents_nil s, start, by rw [bits_nil, ← eq_take_append_nil room]⟩
  | cons i is ih =>
    obtain ⟨rest, first⟩ := event i is s start room
    have cfg : (after i s).cfg = s.cfg := (keepsSurroundings_after i s).cfg
    obtain ⟨t, run, done, others⟩ := ih (after i s) rest (by rw [first, cfg]; exact List.length_take_le _ _)
    refine ⟨t, (applyEvents_cons (exec_eq i s)).trans run, done, ?_⟩
    rw [others, first, cfg, take_append_take, List.append_assoc, ← bits_cons]

/-! ## The panel buffer -/

theorem risingBits_cons (i : Instr) (is : List Instr) : risingBits (i :: is) = risingBits [i] ++ risingBits is := by
  cases i <;> rfl

/-- Neither the edges' timing part nor a checksum touches the panel buffer: it takes the bit of a rising edge. -/
theorem after_pBuf_of_capturesOnly {i : Instr} (captures : capturesOnly i = true) {s : State}
    (room : s.pBuf.length ≤ s.cfg.maxBits) :
    (after i s).pBuf = (s.pBuf ++ risingBits [i]).take s.cfg.maxBits := by
  cases i with
  | edgeR d t => rw [after_edgeR, appendPanel_pBuf, edgeTiming_cfg, edgeTiming_pBuf, append_eq_take d room]; rfl
  | edgeF d t => rw [after_edgeF, appendKeypad_pBuf, edgeTiming_pBuf]; exact eq_take_append_nil room
  | nop | cksumP | cksumK => exact eq_take_append_nil room
  | poll | reset => cases captures

/-- Settles O18: each event of the list extends the panel buffer by its rising bits. -/
theorem panelBufferCollectsRisingBits : Obligations.PanelBufferCollectsRisingBits := by
  intro es s captures room
  have event (i : Instr) (is : List Instr) (s : State) (captures : (i :: is).all capturesOnly = true)
      (room : s.pBuf.length ≤ s.cfg.maxBits) :
      is.all capturesOnly = true ∧ (after i s).pBuf = (s.pBuf ++ risingBits [i]).take s.cfg.maxBits := by
    rw [List.all_cons, Bool.and_eq_true] at captures
    exact ⟨captures.2, after_pBuf_of_capturesOnly captures.1 room⟩
  obtain ⟨t, run, _, pBuf⟩ := applyEvents_collects (P := fun _ es => es.all capturesOnly = true) rfl risingBits_cons
    event es s captures room
  exact ⟨t, run, pBuf⟩

/-! ## The keypad buffer -/

theorem fallingBits_cons (i : Instr) (is : List Instr) : fallingBits (i :: is) = fallingBits [i] ++ fallingBits is := by
  cases i <;> rfl

/-- In state `s` the events `es` only capture, none of them is a boundary edge, and the pending Word is `pend`. -/
structure InsideWord (pend : BitSeq) (s : State) (es : List Instr) : Prop where
  captures : es.all capturesOnly = true
  noBoundary : inWord s.cfg s.lastEdgeUs es = true
  kPend : s.kPend = pend

/-- Inside a Word an edge hands nothing off, so the keypad buffer takes the bit of a falling edge and `k_pend` stays;
the next edge is measured from this one. -/
theorem InsideWord.after {pend : BitSeq} {s : State} {i : Instr} {is : List Instr}
    (inside : InsideWord pend s (i :: is)) (room : s.kBuf.length ≤ s.cfg.maxBits) :
    InsideWord pend (after i s) is ∧ (after i s).kBuf = (s.kBuf ++ fallingBits [i]).take s.cfg.maxBits := by
  obtain ⟨captures, noBoundary, kPend⟩ := inside
  rw [List.all_cons, Bool.and_eq_true] at captures
  have timing {t : Word32} (h : (!isBoundary s.cfg (sub32 t s.lastEdgeUs)) = true) :
      edgeTiming t s = { s with intervalUs := t - s.lastEdgeUs, lastEdgeUs := t } := by
    rw [Bool.not_eq_true', sub32] at h
    rw [edgeTiming_eq, h]
    rfl
  cases i with
  | edgeR d t =>
    rw [inWord, Bool.and_eq_true] at noBoundary
    rw [after_edgeR, timing noBoundary.1]
    exact ⟨⟨captures.2, noBoundary.2, kPend⟩, eq_take_append_nil room⟩
  | edgeF d t =>
    rw [inWord, Bool.and_eq_true] at noBoundary
    rw [after_edgeF, timing noBoundary.1]
    exact ⟨⟨captures.2, noBoundary.2, kPend⟩, append_eq_take d room⟩
  | nop | cksumP | cksumK => exact ⟨⟨captures.2, noBoundary, kPend⟩, eq_take_append_nil room⟩
  | poll | reset => exact absurd captures.1 Bool.false_ne_true

/-- Settles O19: inside a Word each event of the list extends the keypad buffer by its falling bits. -/
theorem keypadBufferCollectsFallingBits : Obligations.KeypadBufferCollectsFallingBits := by
  intro es s captures noBoundary room
  obtain ⟨t, run, done, kBuf⟩ := applyEvents_collects (buf := State.kBuf) (P := InsideWord s.kPend) rfl
    fallingBits_cons (fun _ _ _ inside room => inside.after room) es s ⟨captures, noBoundary, rfl⟩ room
  exact ⟨t, run, kBuf, done.kPend⟩

end Sys2Proof.Machine
end

section
/-! PROOF. Family `other`, the Framer: the indicator (O22), a second POLL (O23), a repeated panel Word (O25), the block that keeps its pending Word (O29) and the delivery of a well-timed Word (O30). -/

namespace Sys2Proof.Machine

/-! ## The indicator -/

/-- Every POLL drives the indicator before its framing test, and nothing after the test writes it (R162). -/
theorem pollOnce_led (m : Word32) (s : State) :
    (pollOnce m s).led = decide ((m - s.lastActivityMs).toNat ≤ 500) := by
  rw [← ledLevel_eq]
  cases ready : framingReady s with
  | true => rw [pollOnce_of_ready ready, frameWords_eq]; rfl
  | false => rw [pollOnce_of_not_ready ready]; rfl

theorem SamplerWrites.led {s t : State} (h : SamplerWrites s t) : t.led = s.led := by
  rw [h]

theorem after_led {i : Instr} (no_poll : ∀ u m, i ≠ .poll u m) (no_reset : i ≠ .reset) (s : State) :
    (after i s).led = s.led := by
  cases i with
  | edgeR | edgeF => exact (samplerWrites_after s rfl).led
  | nop | cksumP | cksumK => rfl
  | poll u m => exact absurd rfl (no_poll u m)
  | reset => exact absurd rfl no_reset

/-- Settles O22: the level of every POLL, its case of an activity time of 0, and the other operations. -/
theorem indicatorFollowsActivityAtPolls : Obligations.IndicatorFollowsActivityAtPolls := by
  refine ⟨fun u m s => ⟨_, exec_poll u m s, pollOnce_led m s⟩, fun u m s never recent => ?_,
    fun i s t no_poll no_reset h => ?_⟩
  · refine ⟨_, exec_poll u m s, ?_⟩
    rw [pollOnce_led, never, BitVec.ofNat_eq_ofNat, BitVec.sub_zero, decide_eq_true recent]
  · obtain rfl : after i s = t := by rw [exec_eq] at h; exact Host.Outcome.next.inj h
    exact after_led no_poll no_reset s

/-! ## A second POLL -/

/-- No POLL leaves a Word ready: one that frames leaves the panel buffer empty, and one that does not leaves what its
own test refused. -/
theorem framingReady_pollOnce (m : Word32) (s : State) : framingReady (pollOnce m s) = false := by
  cases ready : framingReady s with
  | true =>
    have too_short : ¬8 ≤ (pollOnce m s).pBuf.length := by
      rw [pollOnce_of_ready ready, frameWords_pBuf]
      exact Nat.not_succ_le_zero 7
    rw [← Bool.not_eq_true, framingReady_iff]
    exact fun h => too_short h.2
  | false => rw [pollOnce_of_not_ready ready, ← ready]; rfl

/-- A POLL without a ready Word clears the codes and the status and drives the indicator (R169). -/
theorem exec_poll_of_not_ready {s : State} (not_ready : framingReady s = false) (u m : Word32) :
    exec (.poll u m) s = .next
      { s with pcmd := 0, kcmd := 0, status := 0, led := decide ((m - s.lastActivityMs).toNat ≤ 500) } :=
  pollEffect.1 u m s fun h => by rw [← framingReady_iff, not_ready] at h; cases h

/-- Every edge measures its interval from the edge before it (R131). -/
theorem after_edge_interval {i : Instr} {d : Bool} {x : Word32} (edge : i = .edgeR d x ∨ i = .edgeF d x) (s : State) :
    (after i s).intervalUs = x - s.lastEdgeUs := by
  obtain rfl | rfl := edge
  · rw [after_edgeR, appendPanel_intervalUs, edgeTiming_eq]
  · rw [after_edgeF, appendKeypad_intervalUs, edgeTiming_eq]

theorem not_ready_of_interval_le {s : State} (closed : s.intervalUs.toNat ≤ s.cfg.wbiUs + s.cfg.guardUs) :
    framingReady s = false := by
  rw [← Bool.not_eq_true, framingReady_iff]
  exact fun h => Nat.not_lt.2 closed h.1

/-- Settles O23: no Word is ready after a POLL, nor after an edge whose interval does not exceed `TH_P`. -/
theorem pollFramesAtMostOnce : Obligations.PollFramesAtMostOnce := by
  refine ⟨fun u m u' m' s t h => ?_, fun d x u m s i edge closed => ?_⟩
  · obtain rfl : pollOnce m s = t := by rw [exec_poll] at h; exact Host.Outcome.next.inj h
    exact exec_poll_of_not_ready (framingReady_pollOnce m s) u' m'
  · have not_ready : framingReady (after i s) = false := not_ready_of_interval_le (by
      rw [after_edge_interval edge, (keepsSurroundings_after i s).cfg]
      exact closed)
    exact ⟨_, exec_eq i s, _, exec_poll_of_not_ready not_ready u m, rfl, rfl, rfl, rfl, rfl⟩

/-! ## A repeated panel Word -/

/-- Settles O25: each acceptance stamps its own Word, so the next judgement compares with that one alone (R190). -/
theorem repeatedPanelWordIsRejectedOnce : Obligations.RepeatedPanelWordIsRejectedOnce := by
  intro w w' m s nonzero same_command different fresh
  have first : acceptPanel w m s = (command w, stampPanel w m s) :=
    acceptPanel_of_accepted m (not_or.2 ⟨nonzero, fresh⟩)
  have again : acceptPanel w m (stampPanel w m s) = (0, stampPanel w m s) := acceptPanel_of_rejected m (.inr rfl)
  have other : acceptPanel w' m (stampPanel w m s) = (command w', stampPanel w' m (stampPanel w m s)) :=
    acceptPanel_of_accepted m (not_or.2 ⟨same_command ▸ nonzero, different⟩)
  have back : acceptPanel w m (stampPanel w' m (stampPanel w m s)) =
      (command w, stampPanel w m (stampPanel w' m (stampPanel w m s))) :=
    acceptPanel_of_accepted m (not_or.2 ⟨nonzero, different.symm⟩)
  rw [first, other, back]
  exact ⟨rfl, again, same_command, rfl⟩

/-! ## The block that keeps its pending Word -/

/-- The state with another pending keypad Word. -/
def withPend (x : BitSeq) (s : State) : State := { s with kPend := x }

/-- What the block of R166 that keeps `k_pend` leaves after an operation. -/
def afterKeeping (i : Instr) (s : State) : State :=
  match i with
  | .poll _ m => withPend s.kPend (pollOnce m s)
  | i => after i s

theorem execKeepingPending_eq (i : Instr) (s : State) : execKeepingPending i s = .next (afterKeeping i s) := by
  cases i <;> rfl

/-- The relation between the two blocks: the same state, or no Word is ready and only the pending Words differ. A Word
gets ready only by a boundary edge, which overwrites both. -/
def SameButPend (s k : State) : Prop := k = s ∨ (framingReady s = false ∧ ∃ x, k = withPend x s)

theorem SameButPend.outputs {s k : State} (same : SameButPend s k) : outputs k = outputs s := by
  obtain rfl | ⟨_, x, rfl⟩ := same <;> rfl

/-- An edge that is no boundary leaves an interval too short for the framing test, since `TH_K` is at most `TH_P`. -/
theorem not_ready_of_not_boundary {s : State} (not_boundary : isBoundary s.cfg s.intervalUs = false) :
    framingReady s = false := by
  refine not_ready_of_interval_le ?_
  rw [← Bool.not_eq_true, isBoundary_iff] at not_boundary
  omega

/-- The timing part of an edge removes the difference between the blocks at a boundary, and otherwise leaves no Word
ready, whatever the append puts into the panel buffer. -/
theorem edgeTiming_withPend (t : Word32) (x : BitSeq) (s : State) :
    edgeTiming t (withPend x s) = edgeTiming t s ∨
    (isBoundary (edgeTiming t s).cfg (edgeTiming t s).intervalUs = false ∧
      edgeTiming t (withPend x s) = withPend x (edgeTiming t s)) := by
  rw [edgeTiming_eq, edgeTiming_eq]
  cases boundary : isBoundary s.cfg (t - s.lastEdgeUs) with
  | true => left; simp only [withPend, boundary, if_true]
  | false => right; exact ⟨rfl, by simp only [withPend, boundary, Bool.false_eq_true, if_false]⟩

theorem sameButPend_after (i : Instr) {s k : State} (same : SameButPend s k) :
    SameButPend (after i s) (afterKeeping i k) := by
  obtain rfl | ⟨not_ready, x, rfl⟩ := same
  · cases i with
    | poll _ m => exact .inr ⟨framingReady_pollOnce m k, k.kPend, rfl⟩
    | nop | edgeR | edgeF | cksumP | cksumK | reset => exact .inl rfl
  · cases i with
    | poll _ m =>
      refine .inr ⟨framingReady_pollOnce m s, x, ?_⟩
      rw [afterKeeping, after_poll, pollOnce_of_not_ready not_ready,
        pollOnce_of_not_ready (s := withPend x s) not_ready]
      rfl
    | edgeR d t | edgeF d t =>
      simp only [afterKeeping, after_edgeR, after_edgeF]
      obtain same | ⟨not_boundary, differ⟩ := edgeTiming_withPend t x s
      · rw [same]; exact .inl rfl
      · rw [differ]; exact .inr ⟨not_ready_of_not_boundary not_boundary, x, rfl⟩
    | nop | cksumP | cksumK => exact .inr ⟨not_ready, x, rfl⟩
    | reset => exact .inl rfl

theorem observe_cons (i : Instr) (is : List Instr) (s : State) :
    observe (i :: is) s = outputs (after i s) :: observe is (after i s) := by
  rw [observe, exec_eq]

theorem observeKeepingPending_cons (i : Instr) (is : List Instr) (s : State) :
    observeKeepingPending (i :: is) s = outputs (afterKeeping i s) :: observeKeepingPending is (afterKeeping i s) := by
  rw [observeKeepingPending, execKeepingPending_eq]

/-- Related states show the same outputs from there on. -/
theorem observe_of_sameButPend (es : List Instr) {s k : State} (same : SameButPend s k) :
    observe es s = observeKeepingPending es k := by
  induction es generalizing s k with
  | nil => rfl
  | cons i is ih =>
    have next := sameButPend_after i same
    rw [observe_cons, observeKeepingPending_cons, next.outputs, ih next]

/-- Settles O29: both blocks start in the same state. -/
theorem clearingThePendingWordIsInvisible : Obligations.ClearingThePendingWordIsInvisible :=
  fun es _ => observe_of_sameButPend es (.inl rfl)

end Sys2Proof.Machine
end

section
/-! PROOF. Family `other`, a well-timed Word from its first edge to its delivery (O30). -/

namespace Sys2Proof.Machine

/-! ## The edges of a Word -/

/-- A rising edge at most `TH_K` after the last one, with room for its bit (R131, R133). -/
theorem after_edgeR_of_room {t : Word32} {s : State} (d : Bool)
    (within : (t - s.lastEdgeUs).toNat ≤ s.cfg.wbiUs - s.cfg.guardUs) (room : s.pBuf.length < s.cfg.maxBits) :
    after (.edgeR d t) s =
      { s with intervalUs := t - s.lastEdgeUs, lastEdgeUs := t, pBuf := s.pBuf ++ [d] } := by
  rw [after_edgeR, edgeTiming_of_not_boundary within, appendPanel, append_of_lt d room]

/-- A falling edge at most `TH_K` after the last one, with room for its bit (R131, R134). -/
theorem after_edgeF_of_room {t : Word32} {s : State} (d : Bool)
    (within : (t - s.lastEdgeUs).toNat ≤ s.cfg.wbiUs - s.cfg.guardUs) (room : s.kBuf.length < s.cfg.maxBits) :
    after (.edgeF d t) s =
      { s with intervalUs := t - s.lastEdgeUs, lastEdgeUs := t, kBuf := s.kBuf ++ [d] } := by
  rw [after_edgeF, edgeTiming_of_not_boundary within, appendKeypad, append_of_lt d room]

/-- A falling edge more than `TH_K` after the last one (R137). -/
theorem after_edgeF_of_boundary {t : Word32} {s : State} (d : Bool)
    (boundary : s.cfg.wbiUs - s.cfg.guardUs < (t - s.lastEdgeUs).toNat) :
    after (.edgeF d t) s =
      { s with intervalUs := t - s.lastEdgeUs, lastEdgeUs := t, kPend := s.kBuf, kBuf := [d] } :=
  Host.Outcome.next.inj ((exec_eq _ s).symm.trans (exec_edgeF_of_boundary d boundary))

/-- The time since an edge, however the written times wrap (R14). -/
theorem elapsed_toNat {t g : Nat} {s : State} (last : s.lastEdgeUs = BitVec.ofNat 32 t) (short : g < 2 ^ 32) :
    (BitVec.ofNat 32 (t + g) - s.lastEdgeUs).toNat = g := by
  have wrap := elapsedTimeIsModular.2 t (t + g) (Nat.le_add_right t g) (by omega)
  rw [sub32] at wrap
  rw [last, wrap, Nat.add_sub_cancel_left]

/-- The state `s` after edges that put `ps` into the panel buffer and `ks` into the keypad buffer, the last of them at
`t`. -/
structure Captured (s r : State) (ps ks : BitSeq) (t : Nat) : Prop where
  cfg : r.cfg = s.cfg
  pBuf : r.pBuf = s.pBuf ++ ps
  kBuf : r.kBuf = s.kBuf ++ ks
  lastEdgeUs : r.lastEdgeUs = BitVec.ofNat 32 t

theorem Captured.trans {s r q : State} {ps ks ps' ks' : BitSeq} {t t' : Nat} (first : Captured s r ps ks t)
    (others : Captured r q ps' ks' t') : Captured s q (ps ++ ps') (ks ++ ks') t' where
  cfg := others.cfg.trans first.cfg
  pBuf := by rw [others.pBuf, first.pBuf, List.append_assoc]
  kBuf := by rw [others.kBuf, first.kBuf, List.append_assoc]
  lastEdgeUs := others.lastEdgeUs

/-- Half a bit period fits within `TH_K`, so an edge that comes that much later is no boundary. -/
theorem half_period_within {s : State} {t : Nat} (half : 500 ≤ s.cfg.wbiUs - s.cfg.guardUs)
    (last : s.lastEdgeUs = BitVec.ofNat 32 t) :
    (timeWord (t + 500) - s.lastEdgeUs).toNat ≤ s.cfg.wbiUs - s.cfg.guardUs := by
  rw [timeWord, elapsed_toNat last (by decide)]
  exact half

theorem captured_edgeR {s : State} {t : Nat} (d : Bool) (half : 500 ≤ s.cfg.wbiUs - s.cfg.guardUs)
    (last : s.lastEdgeUs = BitVec.ofNat 32 t) (room : s.pBuf.length < s.cfg.maxBits) :
    Captured s (after (.edgeR d (timeWord (t + 500))) s) [d] [] (t + 500) := by
  rw [after_edgeR_of_room d (half_period_within half last) room]
  exact ⟨rfl, rfl, (List.append_nil _).symm, rfl⟩

theorem captured_edgeF {s : State} {t : Nat} (d : Bool) (half : 500 ≤ s.cfg.wbiUs - s.cfg.guardUs)
    (last : s.lastEdgeUs = BitVec.ofNat 32 t) (room : s.kBuf.length < s.cfg.maxBits) :
    Captured s (after (.edgeF d (timeWord (t + 500))) s) [] [d] (t + 500) := by
  rw [after_edgeF_of_room d (half_period_within half last) room]
  exact ⟨rfl, (List.append_nil _).symm, rfl, rfl⟩

/-- A pair's events, then those of the pairs after it (R115). -/
theorem expandWord_cons_events (p k : Bool) (ps ks : BitSeq) (t : Nat) :
    (expandWord (p :: ps) (k :: ks) t).map (fun e => e.2) =
      .edgeF k (timeWord t) :: .edgeR p (timeWord (t + 500)) :: (expandWord ps ks (t + 1000)).map (fun e => e.2) := rfl

/-- From the first falling edge of a Word on, at `t`, its edges are half a bit period apart and all captured: the rising
edge of the first pair, then both edges of each pair that follows. -/
theorem applyEvents_pairs (p : Bool) (ps ks : BitSeq) (same : ps.length = ks.length) (t : Nat) (s : State)
    (half : 500 ≤ s.cfg.wbiUs - s.cfg.guardUs) (last : s.lastEdgeUs = BitVec.ofNat 32 t)
    (pRoom : s.pBuf.length + ps.length < s.cfg.maxBits) (kRoom : s.kBuf.length + ks.length ≤ s.cfg.maxBits) :
    ∃ r, applyEvents (.edgeR p (timeWord (t + 500)) :: (expandWord ps ks (t + 1000)).map (fun e => e.2)) s = .next r ∧
      Captured s r (p :: ps) ks (t + 1000 * ps.length + 500) := by
  induction ps generalizing p ks t s with
  | nil =>
    obtain rfl : ks = [] := List.eq_nil_of_length_eq_zero same.symm
    exact ⟨_, applyEvents_cons (exec_eq _ s), captured_edgeR p half last pRoom⟩
  | cons p' ps ih =>
    obtain _ | ⟨k', ks⟩ := ks
    · cases same
    rw [List.length_cons] at pRoom kRoom
    have rise := captured_edgeR p half last (by omega)
    generalize afterRise : after (.edgeR p (timeWord (t + 500))) s = r at rise
    have fall : Captured r (after (.edgeF k' (timeWord (t + 1000))) r) [] [k'] (t + 1000) :=
      captured_edgeF k' (by rw [rise.cfg]; exact half) rise.lastEdgeUs (by
        rw [rise.cfg, rise.kBuf, List.append_nil]
        omega)
    generalize afterFall : after (.edgeF k' (timeWord (t + 1000))) r = q at fall
    have pair := rise.trans fall
    obtain ⟨r', run, others⟩ := ih p' ks (Nat.succ.inj same) (t + 1000) q (by rw [pair.cfg]; exact half)
      pair.lastEdgeUs
      (by rw [pair.cfg, pair.pBuf, List.append_nil, List.length_append, List.length_singleton]; omega)
      (by rw [pair.cfg, pair.kBuf, List.nil_append, List.length_append, List.length_singleton]; omega)
    refine ⟨r', ?_, ?_⟩
    · rw [expandWord_cons_events, applyEvents_cons (exec_eq _ s), afterRise, applyEvents_cons (exec_eq _ r), afterFall,
        run]
    · rw [List.length_cons, show t + 1000 * (ps.length + 1) + 500 = t + 1000 + 1000 * ps.length + 500 by omega]
      exact pair.trans others

/-- A Word after a pause of more than `TH_K`: its first falling edge is a boundary and starts the keypad buffer, and the
buffers take the rest of it. -/
theorem applyEvents_word {p k : BitSeq} (same : p.length = k.length) (nonempty : 0 < p.length) {t : Nat} {s : State}
    (half : 500 ≤ s.cfg.wbiUs - s.cfg.guardUs) (fits : p.length ≤ s.cfg.maxBits) (empty : s.pBuf = [])
    (pause : s.cfg.wbiUs - s.cfg.guardUs < (BitVec.ofNat 32 t - s.lastEdgeUs).toNat) :
    ∃ r, applyEvents ((expandWord p k t).map (fun e => e.2)) s = .next r ∧ r.cfg = s.cfg ∧ r.pBuf = p ∧ r.kBuf = k ∧
      r.lastEdgeUs = BitVec.ofNat 32 (t + 1000 * (p.length - 1) + 500) := by
  obtain _ | ⟨p0, ps⟩ := p
  · cases nonempty
  obtain _ | ⟨k0, ks⟩ := k
  · cases same
  rw [List.length_cons] at fits
  have same' : ps.length = ks.length := Nat.succ.inj same
  have start := after_edgeF_of_boundary k0 pause
  generalize afterStart : after (.edgeF k0 (BitVec.ofNat 32 t)) s = s1 at start
  obtain ⟨r, run, cfg, pBuf, kBuf, last⟩ := applyEvents_pairs p0 ps ks same' t s1 (by rw [start]; exact half)
    (by rw [start]) (by rw [start, empty, List.length_nil, Nat.zero_add]; exact fits)
    (by rw [start, List.length_singleton]; dsimp only; omega)
  rw [start] at cfg pBuf kBuf
  refine ⟨r, ?_, cfg, ?_, kBuf, last⟩
  · rw [expandWord_cons_events, timeWord, applyEvents_cons (exec_eq _ s), afterStart, run]
  · rw [pBuf, empty, List.nil_append]

/-! ## Delivery -/

/-- A POLL that frames delivers both Words and leaves the keypad buffer (R165, R166). -/
theorem pollOnce_delivers {s : State} (m : Word32) (ready : framingReady s = true) :
    (pollOnce m s).pWord = s.pBuf ∧ (pollOnce m s).kWord = s.kPend ∧ (pollOnce m s).pBuf = [] ∧
      (pollOnce m s).kBuf = s.kBuf := by
  rw [pollOnce_of_ready ready, frameWords_eq]
  exact ⟨rfl, rfl, rfl, rfl⟩

/-- Settles O30: the edges of the Word are captured, and the ending edge hands the keypad Word off and opens the window
of the POLL. -/
theorem wellTimedWordIsDelivered : Obligations.WellTimedWordIsDelivered := by
  intro p k t g b u m s same enough fits empty half pause gap short
  obtain ⟨r, run, cfg, pBuf, kBuf, last⟩ := applyEvents_word same (by omega) half fits empty pause
  have interval := elapsed_toNat last short
  have ending := after_edgeF_of_boundary b (s := r) (by rw [interval, cfg]; omega)
  generalize afterEnding : after (.edgeF b (BitVec.ofNat 32 (t + 1000 * (p.length - 1) + 500 + g))) r = q at ending
  have ready : framingReady q = true := by
    rw [framingReady_iff, ending]
    exact ⟨by rw [interval, cfg]; exact gap, by rw [pBuf]; exact enough⟩
  obtain ⟨pWord, kWord, pTaken, kKept⟩ := pollOnce_delivers m ready
  refine ⟨pollOnce m q, ?_, ?_, ?_, pTaken, ?_⟩
  · rw [expandLine, applyEvents_append run, applyEvents_cons (exec_eq _ r), afterEnding,
      applyEvents_cons (exec_poll u m q), applyEvents_nil]
  · rw [pWord, ending, pBuf]
  · rw [kWord, ending, kBuf]
  · rw [kKept, ending]

end Sys2Proof.Machine
end

section
/-! PROOF. Family `other`, the checksum validator: messages built from bytes (O33), the framing bit (O34) and the bit-serial validator of R220 (O35). -/

namespace Sys2Proof.Machine

/-! ## Messages built from bytes -/

theorem bits8_length (b : Byte) : (bits8 b).length = 8 := by
  rw [bits8, List.length_map, List.length_range]

theorem flatten_bits8_length (bs : List Byte) : (bs.map bits8).flatten.length = 8 * bs.length := by
  induction bs with
  | nil => rfl
  | cons b bs ih => rw [List.map_cons, List.flatten_cons, List.length_append, ih, bits8_length, List.length_cons]; omega

theorem bitAt_bits8 (b : Byte) {j : Nat} (inside : j < 8) : bitAt (bits8 b) j = b.getLsbD (7 - j) := by
  rw [bitAt, bits8, List.getD_eq_getElem?_getD, List.getElem?_map, List.getElem?_range inside]
  rfl

/-- A byte reads back from its MSB-first expansion (R221). -/
theorem byteAt_bits8 (b : Byte) : byteAt (bits8 b) 0 = b := by
  refine BitVec.eq_of_getLsbD_eq fun i inside => ?_
  rw [byteAt, BitVec.getLsbD_ofNat, uint_testBit _ _ inside, Nat.zero_add, bitAt_bits8 b (by omega),
    decide_eq_true inside, Bool.true_and]
  congr 1
  omega

/-- Bytes laid end to end read back group by group, whatever stands before and after them. -/
theorem group_flatten_bits8 (pre tail : BitSeq) (bs : List Byte) {i : Nat} (inside : i < bs.length) :
    group (pre ++ (bs.map bits8).flatten ++ tail) pre.length i = bs[i] := by
  induction bs generalizing pre i with
  | nil => cases inside
  | cons b bs ih =>
    have laid : pre ++ ((b :: bs).map bits8).flatten ++ tail = pre ++ bits8 b ++ (bs.map bits8).flatten ++ tail := by
      simp only [List.map_cons, List.flatten_cons, List.append_assoc]
    rw [laid]
    cases i with
    | zero =>
      have first : ∀ j < 8, bitAt (pre ++ bits8 b ++ (bs.map bits8).flatten ++ tail) (pre.length + j) =
          bitAt (bits8 b) (0 + j) := by
        intro j hj
        rw [List.append_assoc, List.append_assoc, bitAt_append_right (Nat.le_add_right _ _), Nat.add_sub_cancel_left,
          bitAt_append_left (by rw [bits8_length]; exact hj), Nat.zero_add]
      exact (byteAt_congr first).trans (byteAt_bits8 b)
    | succ i =>
      have moved : group (pre ++ bits8 b ++ (bs.map bits8).flatten ++ tail) pre.length (i + 1) =
          group (pre ++ bits8 b ++ (bs.map bits8).flatten ++ tail) (pre ++ bits8 b).length i := by
        rw [group, group, List.length_append, bits8_length, Nat.add_assoc, Nat.mul_succ, Nat.add_comm 8]
      exact moved.trans (ih _ (Nat.lt_of_succ_lt_succ inside))

/-- A Word built from bytes: its header, bits that belong to no group, its groups and trailing bits (R101, R102). -/
def messageBits (b0 : Byte) (gap : BitSeq) (groups : List Byte) (tail : BitSeq) : BitSeq :=
  bits8 b0 ++ gap ++ (groups.map bits8).flatten ++ tail

theorem panelMessageBits_append (b0 : Byte) (f : Bool) (bs : List Byte) (g : Byte) (tail : BitSeq) :
    panelMessageBits b0 f bs g ++ tail = messageBits b0 [f] (bs ++ [g]) tail := by
  simp [panelMessageBits, messageBits]

theorem keypadMessageBits_append (b0 : Byte) (bs : List Byte) (g : Byte) (tail : BitSeq) :
    keypadMessageBits b0 bs g ++ tail = messageBits b0 [] (bs ++ [g]) tail := by
  simp [keypadMessageBits, messageBits]

theorem messageBits_length (b0 : Byte) (gap : BitSeq) (groups : List Byte) (tail : BitSeq) :
    (messageBits b0 gap groups tail).length = 8 + gap.length + 8 * groups.length + tail.length := by
  rw [messageBits, List.length_append, List.length_append, List.length_append, bits8_length, flatten_bits8_length]

/-- The header is the first of the bytes laid out. -/
theorem command_messageBits (b0 : Byte) (gap : BitSeq) (groups : List Byte) (tail : BitSeq) :
    command (messageBits b0 gap groups tail) = b0 := by
  have laid : messageBits b0 gap groups tail =
      [] ++ ([b0].map bits8).flatten ++ (gap ++ (groups.map bits8).flatten ++ tail) := by
    simp [messageBits]
  rw [laid]
  exact group_flatten_bits8 [] _ [b0] Nat.one_pos

theorem group_messageBits (b0 : Byte) (gap : BitSeq) {groups : List Byte} (tail : BitSeq) {i : Nat}
    (inside : i < groups.length) : group (messageBits b0 gap groups tail) (8 + gap.length) i = groups[i] := by
  have start : (bits8 b0 ++ gap).length = 8 + gap.length := by rw [List.length_append, bits8_length]
  rw [← start, messageBits, group_flatten_bits8 _ tail groups inside]

/-- The wide sum over the groups of a message is the sum of its bytes (R218). -/
theorem sum_groups_eq_sum {w : BitSeq} {start : Nat} {bs : List Byte}
    (groups : ∀ i (inside : i < bs.length), group w start i = bs[i]) :
    ∑ i ∈ Finset.range bs.length, uint w (start + 8 * i) 8 = (bs.map BitVec.toNat).sum := by
  rw [Finset.sum_range, ← Fin.sum_univ_fun_getElem]
  exact Finset.sum_congr rfl fun i _ => by rw [← byteAt_toNat, ← groups i i.isLt]; rfl

/-- The checksum of a message compares the sum of header and payload with the final group, whatever stands in the gap
and in up to 7 trailing bits. -/
theorem checksum_messageBits (b0 : Byte) (gap : BitSeq) (bs : List Byte) (g : Byte) {tail : BitSeq}
    (short : tail.length < 8) :
    checksum (messageBits b0 gap (bs ++ [g]) tail) (8 + gap.length) =
      if (b0.toNat + (bs.map BitVec.toNat).sum) % 256 = g.toNat then .valid else .invalid := by
  have length := messageBits_length b0 gap (bs ++ [g]) tail
  have header := command_messageBits b0 gap (bs ++ [g]) tail
  have groups {i : Nat} (inside : i < (bs ++ [g]).length) := group_messageBits b0 gap tail inside
  have inside {i : Nat} (h : i < bs.length + 1) : i < (bs ++ [g]).length := by rwa [List.length_append]
  generalize messageBits b0 gap (bs ++ [g]) tail = w at *
  rw [List.length_append, List.length_singleton] at length
  have count : groupCount w.length (8 + gap.length) = bs.length + 1 := by
    rw [groupCount_of_le (by omega), length]
    omega
  have final : group w (8 + gap.length) bs.length = g := by
    rw [groups (inside (Nat.lt_succ_self _)), List.getElem_concat_length rfl]
  have payload (i : Nat) (h : i < bs.length) : group w (8 + gap.length) i = bs[i] := by
    rw [groups (inside (Nat.lt_succ_of_lt h)), List.getElem_append_left h]
  have compare := sumGroups_eq_group_iff w (8 + gap.length) bs.length
  rw [sum_groups_eq_sum payload, ← byteAt_toNat, ← command, header, ← byteAt_toNat, ← group, final] at compare
  rw [checksum_of_final_group (by rw [length, ckMinBits]; omega) count]
  simp only [header, final, compare]

/-- Settles O33: between header and groups a panel message has the framing bit, a keypad message nothing. -/
theorem checksumRoundTrip : Obligations.ChecksumRoundTrip := by
  refine ⟨fun b0 f bs g tail short => ?_, fun b0 bs g tail short => ?_⟩
  · rw [panelMessageBits_append]
    exact checksum_messageBits b0 [f] bs g short
  · rw [keypadMessageBits_append]
    exact checksum_messageBits b0 [] bs g short

/-! ## The framing bit -/

/-- A write at one index is seen by no read of another, inside the sequence or not. -/
theorem bitAt_set_ne (w : BitSeq) {i j : Nat} (other : i ≠ j) (b : Bool) : bitAt (w.set i b) j = bitAt w j := by
  rw [bitAt, bitAt, List.getD_eq_getElem?_getD, List.getD_eq_getElem?_getD, List.getElem?_set_ne other]

theorem byteAt_set_of_outside (w : BitSeq) {i off : Nat} (outside : i < off ∨ off + 8 ≤ i) (b : Bool) :
    byteAt (w.set i b) off = byteAt w off :=
  byteAt_congr fun j _ => bitAt_set_ne w (by omega) b

theorem sumGroups_set_of_lt (w : BitSeq) {i start : Nat} (before : i < start) (b : Bool) (s0 : Byte) (k : Nat) :
    sumGroups (w.set i b) start s0 k = sumGroups w start s0 k := by
  induction k with
  | zero => rfl
  | succ k ih => rw [sumGroups, sumGroups, ih, group, group, byteAt_set_of_outside w (.inl (by omega))]

/-- A bit between the header and the groups is read by no part of the checksum (R210). -/
theorem checksum_set_gap (w : BitSeq) {i start : Nat} (after_header : 8 ≤ i) (before_groups : i < start) (b : Bool) :
    checksum (w.set i b) start = checksum w start := by
  have header : command (w.set i b) = command w := byteAt_set_of_outside w (.inr (by omega)) b
  have groups (k : Nat) : group (w.set i b) start k = group w start k := byteAt_set_of_outside w (.inl (by omega)) b
  simp only [checksum, checksumWith, List.length_set, header, groups, sumGroups_set_of_lt w before_groups]

/-- Settles O34: bit 8 is the gap before `P_START`. -/
theorem framingBitIsNotSummed : Obligations.FramingBitIsNotSummed := by
  intro s t b h
  obtain rfl : writeCk (checksum s.pWord panelStart) s = t := by
    rw [exec_eq, after_cksumP] at h
    exact Host.Outcome.next.inj h
  refine ⟨_, exec_eq _ _, ?_⟩
  rw [after_cksumP, writeCk_ckResult, writeCk_ckResult, checksum_set_gap s.pWord le_rfl (by decide)]

/-! ## The bit-serial validator -/

/-- A bit shifted into a byte register is the next bit of the slice under way. -/
theorem shift_in_bit (a : Nat) (b : Bool) :
    (BitVec.ofNat 8 a <<< 1) ||| BitVec.ofNat 8 b.toNat = BitVec.ofNat 8 (2 * a + b.toNat) := by
  have disjoint : (BitVec.ofNat 8 a <<< 1) &&& BitVec.ofNat 8 b.toNat = 0#8 := by
    ext i hi
    cases b <;> cases i <;> simp
  rw [← BitVec.add_eq_or_of_and_eq_zero _ _ disjoint]
  apply BitVec.eq_of_toNat_eq
  simp [Nat.shiftLeft_eq, Nat.mul_comm]

theorem uint_append_of_le {w : BitSeq} {off n : Nat} (inside : off + n ≤ w.length) (v : BitSeq) :
    uint (w ++ v) off n = uint w off n :=
  uint_congr fun _ _ => bitAt_append_left (by omega)

theorem byteAt_append_of_le {w : BitSeq} {off : Nat} (inside : off + 8 ≤ w.length) (v : BitSeq) :
    byteAt (w ++ v) off = byteAt w off := by
  rw [byteAt, byteAt, uint_append_of_le inside]

theorem sumGroups_append_of_le {w : BitSeq} {start k : Nat} (inside : start + 8 * k ≤ w.length) (v : BitSeq)
    (s0 : Byte) : sumGroups (w ++ v) start s0 k = sumGroups w start s0 k := by
  induction k with
  | zero => rfl
  | succ k ih => rw [sumGroups, sumGroups, ih (by omega), group, group, byteAt_append_of_le (by omega)]

/-- The shift register after one more bit, when it holds the last `n` bits. -/
theorem shift_slice {w : BitSeq} {off n : Nat} (at_end : off + n = w.length) (b : Bool) :
    (BitVec.ofNat 8 (uint w off n) <<< 1) ||| BitVec.ofNat 8 b.toNat =
      BitVec.ofNat 8 (uint (w ++ [b]) off (n + 1)) := by
  rw [shift_in_bit, uint, uint_append_of_le at_end.le, at_end, bitAt_append_right le_rfl, Nat.sub_self]
  rfl

/-- One bit into the serial validator, by what its registers hold: a bit of the header, the header's last bit, a bit to
skip, a bit of a group and a group's last bit (R220). -/
theorem serialBit_of_header {count : Nat} (more : count ≠ 7) (skip : Nat) (shift : Byte) (held : Option Byte)
    (b : Bool) : serialBit ⟨skip, shift, count, none, held⟩ b =
      ⟨skip, (shift <<< 1) ||| BitVec.ofNat 8 b.toNat, count + 1, none, held⟩ :=
  if_neg more

theorem serialBit_of_header_end (skip : Nat) (shift : Byte) (held : Option Byte) (b : Bool) :
    serialBit ⟨skip, shift, 7, none, held⟩ b =
      ⟨skip, 0, 0, some ((shift <<< 1) ||| BitVec.ofNat 8 b.toNat), held⟩ := rfl

theorem serialBit_of_skip (skip : Nat) (shift : Byte) (count : Nat) (acc : Byte) (held : Option Byte) (b : Bool) :
    serialBit ⟨skip + 1, shift, count, some acc, held⟩ b = ⟨skip, shift, count, some acc, held⟩ := rfl

theorem serialBit_of_group {count : Nat} (more : count ≠ 7) (shift acc : Byte) (held : Option Byte) (b : Bool) :
    serialBit ⟨0, shift, count, some acc, held⟩ b =
      ⟨0, (shift <<< 1) ||| BitVec.ofNat 8 b.toNat, count + 1, some acc, held⟩ :=
  if_neg more

theorem serialBit_of_group_end (shift acc : Byte) (held : Option Byte) (b : Bool) :
    serialBit ⟨0, shift, 7, some acc, held⟩ b =
      ⟨0, 0, 0, some (acc + held.getD 0), some ((shift <<< 1) ||| BitVec.ofNat 8 b.toNat)⟩ := rfl

/-- The registers of R220 while the header is loaded. -/
def serialHeader (start : Nat) (w : BitSeq) : SerialCk :=
  ⟨start - 8, BitVec.ofNat 8 (uint w 0 w.length), w.length, none, none⟩

/-- The last complete group, when there is one. -/
def heldGroup (w : BitSeq) (start : Nat) : Nat → Option Byte
  | 0 => none
  | k + 1 => some (group w start k)

/-- The registers of R220 after the header, with `k` complete groups and `n` bits of the next: the header and all groups
but the last complete one are summed. -/
def serialGroups (start : Nat) (w : BitSeq) (k n : Nat) : SerialCk :=
  ⟨start - w.length, BitVec.ofNat 8 (uint w (start + 8 * k) n), n, some (sumGroups w start (command w) (k - 1)),
    heldGroup w start k⟩

/-- The registers of R220 after the bits `w` of a Word whose payload starts at `start`. -/
def serialState (start : Nat) (w : BitSeq) : SerialCk :=
  if w.length < 8 then serialHeader start w
  else serialGroups start w ((w.length - start) / 8) ((w.length - start) % 8)

theorem heldGroup_append_of_le {w : BitSeq} {start k : Nat} (inside : start + 8 * k ≤ w.length) (v : BitSeq) :
    heldGroup (w ++ v) start k = heldGroup w start k := by
  cases k with
  | zero => rfl
  | succ k => rw [heldGroup, heldGroup, group, group, byteAt_append_of_le (by omega)]

/-- Completing a group adds the one before it. -/
theorem sumGroups_add_heldGroup (w : BitSeq) (start : Nat) (s0 : Byte) (k : Nat) :
    sumGroups w start s0 (k - 1) + (heldGroup w start k).getD 0 = sumGroups w start s0 k := by
  cases k with
  | zero => exact BitVec.add_zero _
  | succ k => rfl

theorem serialBit_serialHeader {start : Nat} (after_header : 8 ≤ start) {w : BitSeq} (loading : w.length < 8)
    (b : Bool) : serialBit (serialHeader start w) b = serialState start (w ++ [b]) := by
  have shift := shift_slice (Nat.zero_add w.length) b
  have length : (w ++ [b]).length = w.length + 1 := List.length_append
  rw [serialHeader, serialState, length]
  by_cases last : w.length = 7
  · rw [last] at shift length ⊢
    rw [serialBit_of_header_end, shift, if_neg (Nat.lt_irrefl 8), Nat.sub_eq_zero_of_le after_header, serialGroups,
      length]
    rfl
  · rw [serialBit_of_header last, shift, if_pos (by omega), serialHeader, length]

/-- A bit between header and groups is skipped. -/
theorem serialBit_serialGroups_of_gap {start : Nat} {w : BitSeq} (loaded : 8 ≤ w.length) (gap : w.length < start)
    (b : Bool) : serialBit (serialGroups start w 0 0) b = serialGroups start (w ++ [b]) 0 0 := by
  have header : command (w ++ [b]) = command w := byteAt_append_of_le (by omega) [b]
  have skip : start - w.length = start - (w ++ [b]).length + 1 := by
    rw [List.length_append, List.length_singleton]
    omega
  rw [serialGroups, serialGroups, header, skip]
  exact serialBit_of_skip ..

/-- A bit of a group is shifted in; the eighth completes the group. -/
theorem serialBit_serialGroups {start : Nat} {w : BitSeq} (loaded : 8 ≤ w.length) {k n : Nat}
    (at_end : start + 8 * k + n = w.length) (b : Bool) :
    serialBit (serialGroups start w k n) b =
      if n = 7 then serialGroups start (w ++ [b]) (k + 1) 0 else serialGroups start (w ++ [b]) k (n + 1) := by
  have shift := shift_slice at_end b
  have header : command (w ++ [b]) = command w := byteAt_append_of_le (by omega) [b]
  have summed {j : Nat} (complete : j ≤ k) (s0 : Byte) : sumGroups (w ++ [b]) start s0 j = sumGroups w start s0 j :=
    sumGroups_append_of_le (by omega) [b] s0
  have held : heldGroup (w ++ [b]) start k = heldGroup w start k := heldGroup_append_of_le (by omega) [b]
  have no_skip : start - w.length = 0 := by omega
  have no_skip' : start - (w ++ [b]).length = 0 := by rw [List.length_append]; omega
  rw [serialGroups, serialGroups, serialGroups, header, no_skip, no_skip', held, summed (Nat.sub_le k 1)]
  split_ifs with last
  · subst last
    rw [serialBit_of_group_end, sumGroups_add_heldGroup, shift, Nat.add_sub_cancel, summed le_rfl]
    rfl
  · rw [serialBit_of_group last, shift]

theorem serialBit_serialState {start : Nat} (after_header : 8 ≤ start) (w : BitSeq) (b : Bool) :
    serialBit (serialState start w) b = serialState start (w ++ [b]) := by
  have length : (w ++ [b]).length = w.length + 1 := List.length_append
  by_cases loading : w.length < 8
  · rw [serialState, if_pos loading, serialBit_serialHeader after_header loading]
  · have loaded : 8 ≤ w.length := Nat.le_of_not_lt loading
    rw [serialState, serialState, length, if_neg loading, if_neg (by omega)]
    by_cases gap : w.length < start
    · rw [Nat.sub_eq_zero_of_le gap.le, Nat.sub_eq_zero_of_le gap]
      exact serialBit_serialGroups_of_gap loaded gap b
    · rw [serialBit_serialGroups loaded (by omega) b]
      split_ifs with last
      · congr 1 <;> omega
      · congr 1 <;> omega

theorem foldl_serialBit {start : Nat} (after_header : 8 ≤ start) (w : BitSeq) :
    w.foldl serialBit (serialInit (start - 8)) = serialState start w := by
  induction w using List.reverseRecOn with
  | nil => rfl
  | append_singleton w b ih =>
    rw [List.foldl_append, ih, List.foldl_cons, List.foldl_nil, serialBit_serialState after_header]

theorem groupCount_eq (len start : Nat) : groupCount len start = (len - start) / 8 := by
  rw [groupCount]
  split_ifs <;> omega

/-- The verdict compares the sum of header and groups but the last with the last, as R210 does. -/
theorem serialResult_serialState (w : BitSeq) (start : Nat) :
    serialResult w.length (serialState start w) = checksum w start := by
  by_cases short : w.length ≤ ckMinBits
  · rw [serialResult, if_pos short, checksum_of_length_le start short]
  · have checked : ckMinBits < w.length := Nat.lt_of_not_le short
    have loaded : ¬w.length < 8 := by rw [ckMinBits] at checked; omega
    rw [serialResult, if_neg short, serialState, if_neg loaded, ← groupCount_eq]
    cases groups : groupCount w.length start with
    | zero => rw [checksum_of_no_group checked groups]; rfl
    | succ k => rw [checksum_of_final_group checked groups]; simp [serialGroups, heldGroup]

theorem serialChecksum_eq_checksum {start : Nat} (after_header : 8 ≤ start) (w : BitSeq) :
    serialChecksum w start = checksum w start := by
  rw [serialChecksum, foldl_serialBit after_header, serialResult_serialState]

/-- Settles O35: both payload starts are at or after the end of the header. -/
theorem serialValidatorAgrees : Obligations.SerialValidatorAgrees :=
  fun w => ⟨serialChecksum_eq_checksum (by decide) w, serialChecksum_eq_checksum le_rfl w⟩

end Sys2Proof.Machine
end

section
/-! PROOF. Family `other`, the pin-level layer and traces: register images (O43), the events of a tick (O44), the
synchroniser (O46), pseudo-events and their order (O47), and the text of an event word (O48). -/

namespace Sys2Proof.Machine

/-! ## Register images -/

/-- The stored vector is the sequence, continued with zeros and cut at the capacity (R54, R66). -/
theorem image_getLsbD (cap : Nat) (w : BitSeq) (i : Nat) :
    (image cap w).getLsbD i = (decide (i < cap) && w.getD i false) := by
  rw [image, BitVec.getLsbD_setWidth, BitVec.getLsbD_ofBoolListLE]

/-- `LEN_W` bits hold every length up to the capacity (R7). -/
theorem lengthReg_toNat {c : Config} {w : BitSeq} (room : w.length ≤ c.maxBits) :
    (lengthReg c w).toNat = w.length := by
  rw [lengthReg, BitVec.toNat_ofNat]
  exact Nat.mod_eq_of_lt (room.trans_lt Nat.lt_log2_self)

/-- Settles O43: within the capacity nothing is cut, and beyond the length the sequence reads as 0. -/
theorem registerImageIsExact : Obligations.RegisterImageIsExact := by
  refine fun c w room => ⟨fun i inside => ?_, fun i beyond => ?_, lengthReg_toNat room⟩
  · rw [image_getLsbD, decide_eq_true inside, Bool.true_and]
  · rw [image_getLsbD, List.getD_eq_default _ _ beyond, Bool.and_false]

/-! ## The events of a tick -/

/-- Without `rst` a tick applies what the edge detector and the two requests give; the NOP that stands for no event
changes nothing (R241). -/
theorem applyEvents_tickEvents {p : Pins} (rst : p.rst = false) (c q dd : Bool) (s : State) :
    applyEvents (tickEvents p c q dd) s = applyEvents (edgeEvents p c q dd ++ pollEvents p ++ ckEvents p) s := by
  rw [tickEvents, if_neg (Bool.eq_false_iff.1 rst)]
  cases edgeEvents p c q dd ++ pollEvents p ++ ckEvents p with
  | nil => rw [applyEvents_cons (exec_nop s)]
  | cons i is => rfl

/-- The edge detector as R119 says it: an edge when the sampler is on and the level changed. -/
theorem edgeEvents_eq (p : Pins) (c q dd : Bool) :
    edgeEvents p c q dd =
      if p.sampEn = true ∧ c ≠ q then [if c = true then .edgeR dd p.tUs else .edgeF dd p.tUs] else [] := by
  simp only [edgeEvents, Bool.and_eq_true, bne_iff_ne]

/-- Settles O44: RESET alone, or the events of the detector and the requests, on the sampled lines. -/
theorem tickAppliesItsEventsInOrder : Obligations.TickAppliesItsEventsInOrder := by
  rintro p s s1 c dd rfl rfl rfl
  refine ⟨fun rst => ?_, fun rst => ?_⟩
  · rw [tick_of_rst rst, exec_reset]
    rfl
  · rw [tick, applyEvents_tickEvents rst, edgeEvents_eq]
    rfl

/-! ## The synchroniser -/

/-- A sample enters the chain at one end and the oldest leaves at the other: what comes out, followed by the chain from
its oldest value on, is the old chain followed by the sample (R118). -/
theorem shiftSync_reverse (x : Bool) (q : List Bool) :
    (shiftSync x q).1 :: (shiftSync x q).2.reverse = q.reverse ++ [x] := by
  induction q generalizing x with
  | nil => rfl
  | cons y q ih => rw [shiftSync, List.reverse_cons, ← List.cons_append, ih, List.reverse_cons]

/-- Settles O46, by induction on the samples. -/
theorem synchroniserDelaysByItsLength : Obligations.SynchroniserDelaysByItsLength := by
  intro q xs
  induction xs generalizing q with
  | nil => rfl
  | cons x xs ih =>
    calc syncRun q (x :: xs)
      _ = (shiftSync x q).1 :: ((shiftSync x q).2.reverse ++ xs).take xs.length := by rw [syncRun, ih]
      _ = ((shiftSync x q).1 :: (shiftSync x q).2.reverse ++ xs).take (x :: xs).length := rfl
      _ = (q.reverse ++ x :: xs).take (x :: xs).length := by rw [shiftSync_reverse, List.append_assoc]; rfl

/-! ## Pseudo-events -/

/-- The `i`-th pair of a WORD comes `1000 * i` after the first (R115). -/
theorem expandWord_eq_flatten {p k : BitSeq} (same : p.length = k.length) (t : Nat) :
    expandWord p k t =
      ((List.range p.length).map fun i => expandPair (k.getD i false) (p.getD i false) (t + 1000 * i)).flatten := by
  induction p generalizing k t with
  | nil => cases k <;> rfl
  | cons p0 ps ih =>
    obtain _ | ⟨k0, ks⟩ := k
    · cases same
    rw [expandWord, ih (Nat.succ.inj same), List.length_cons, List.range_succ_eq_map, List.map_cons, List.map_map,
      List.flatten_cons]
    congr 3
    refine funext fun i => ?_
    rw [Function.comp_apply, List.getD_cons_succ, List.getD_cons_succ, Nat.add_assoc, Nat.mul_succ, Nat.add_comm 1000]

/-- One block comes no later than another (R115). -/
abbrev BlockLe : Nat × List Instr → Nat × List Instr → Prop := Order.Preimage Prod.fst (· ≤ ·)

theorem insertBlock_eq_orderedInsert (b : Nat × List Instr) (bs : List (Nat × List Instr)) :
    insertBlock b bs = bs.orderedInsert BlockLe b := by
  induction bs with
  | nil => rfl
  | cons c cs ih => rw [insertBlock, ih, List.orderedInsert_cons]; rfl

/-- The blocks are ordered by an insertion sort. -/
theorem foldr_insertBlock (bs : List (Nat × List Instr)) : bs.foldr insertBlock [] = bs.insertionSort BlockLe :=
  congrArg (fun insert => bs.foldr insert []) (funext fun b => funext (insertBlock_eq_orderedInsert b))

/-- Cutting events into blocks keeps them all, in their order. -/
theorem blocks_flatten (es : List Timed) :
    (blocks es).1 ++ ((blocks es).2.map fun b => b.2).flatten = es.map fun e => e.2 := by
  induction es with
  | nil => rfl
  | cons e es ih =>
    obtain ⟨_ | t, i⟩ := e
    · exact congrArg (List.cons i) ih
    · exact congrArg (List.cons i) ih

/-- Ordering moves whole blocks, so it loses and makes no event. -/
theorem orderEvents_perm (es : List Timed) : (orderEvents es).Perm (es.map fun e => e.2) := by
  rw [orderEvents, foldr_insertBlock, ← blocks_flatten]
  exact (((List.perm_insertionSort BlockLe _).map _).flatten).append_left _

/-- Settles O47: the two expansions, and the two halves of a sort. -/
theorem pseudoEventsExpandInOrder : Obligations.PseudoEventsExpandInOrder := by
  refine ⟨fun k p t => rfl, fun p k t same => expandWord_eq_flatten same t, orderEvents_perm, fun es => ?_⟩
  rw [foldr_insertBlock]
  exact List.pairwise_insertionSort BlockLe _

/-! ## The text of an event word -/

/-- A hexadecimal digit reads back as its value, and is no separator. -/
theorem digitVal_hexDigit {v : Nat} (digit : v < 16) : digitVal (hexDigit v) = some v ∧ hexDigit v ≠ '_' := by
  revert v
  decide

theorem hexDigits_length (v n : Nat) : (hexDigits v n).length = n := by
  induction n generalizing v with
  | zero => rfl
  | succ n ih => rw [hexDigits, List.length_append, ih, List.length_singleton]

theorem separator_notMem_hexDigits (v n : Nat) : '_' ∉ hexDigits v n := by
  induction n generalizing v with
  | zero => exact List.not_mem_nil
  | succ n ih =>
    have last := (digitVal_hexDigit (Nat.mod_lt v (by decide : 16 > 0))).2
    rw [hexDigits, List.mem_append, List.mem_singleton]
    exact not_or.2 ⟨ih (v / 16), last.symm⟩

/-- One digit more multiplies the value read before it by the base. -/
theorem readDigits_concat {base acc x v : Nat} {cs : List Char} {c : Char} (before : readDigits base acc cs = some x)
    (digit : digitVal c = some v) (small : v < base) : readDigits base acc (cs ++ [c]) = some (base * x + v) := by
  induction cs generalizing acc with
  | nil =>
    obtain rfl := Option.some.inj before
    simp only [List.nil_append, readDigits, digit, if_pos small]
  | cons d ds ih =>
    rw [List.cons_append]
    rw [readDigits] at before ⊢
    split at before
    next =>
      split_ifs at before with fits
      rw [if_pos fits, ih before]
    next => cases before

/-- Digits written for a number read back as the number modulo what the digits can hold. -/
theorem readDigits_hexDigits (v n : Nat) : readDigits 16 0 (hexDigits v n) = some (v % 16 ^ n) := by
  induction n generalizing v with
  | zero => rw [Nat.pow_zero, Nat.mod_one]; rfl
  | succ n ih =>
    have digit : v % 16 < 16 := Nat.mod_lt v (by decide)
    rw [hexDigits, readDigits_concat (ih (v / 16)) (digitVal_hexDigit digit).1 digit, Nat.pow_succ', Nat.mod_mul,
      Nat.add_comm]

theorem cutAt_append {sep : Char} {cs : List Char} (no_sep : sep ∉ cs) (ds : List Char) :
    cutAt sep (cs ++ sep :: ds) = (cs, some ds) := by
  induction cs with
  | nil => exact if_pos rfl
  | cons c cs ih =>
    rw [List.mem_cons, not_or] at no_sep
    rw [List.cons_append, cutAt, if_neg (Ne.symm no_sep.1), ih no_sep.2]

/-- A text of three numbers in 2, 8 and 8 digits is read number by number (R110). -/
theorem readEventText_of_parts (h m u : Nat) :
    readEventText (hexDigits h 2 ++ ['_'] ++ hexDigits m 8 ++ ['_'] ++ hexDigits u 8) =
      some (BitVec.ofNat 8 (h % 16 ^ 2) ++ BitVec.ofNat 32 (m % 16 ^ 8) ++ BitVec.ofNat 32 (u % 16 ^ 8)) := by
  have header := readDigits_hexDigits h 2
  have header_digits : hexDigits h 2 = [hexDigit (h / 16 % 16), hexDigit (h % 16)] := rfl
  have cut := cutAt_append (separator_notMem_hexDigits m 8) (hexDigits u 8)
  have lengths : (hexDigits m 8).length = 8 ∧ (hexDigits u 8).length = 8 := ⟨hexDigits_length m 8, hexDigits_length u 8⟩
  rw [header_digits] at header ⊢
  simp only [List.append_assoc, List.cons_append, List.nil_append, readEventText, cut, if_pos lengths, header,
    readDigits_hexDigits]

/-- A field of the word has no more bits than its digits hold. -/
theorem ofNat_toNat_mod {n : Nat} (x : BitVec n) {d : Nat} (holds : 16 ^ d = 2 ^ n) :
    BitVec.ofNat n (x.toNat % 16 ^ d) = x := by
  rw [holds, Nat.mod_eq_of_lt x.isLt, BitVec.ofNat_toNat, BitVec.setWidth_eq]

/-- Settles O48: each field is read back, and the three fields are all of the word. -/
theorem eventTextReadsBack : Obligations.EventTextReadsBack := by
  intro w
  rw [eventText, readEventText_of_parts, ofNat_toNat_mod _ (by decide), ofNat_toNat_mod _ (by decide),
    ofNat_toNat_mod _ (by decide), header_append_times]

end Sys2Proof.Machine
end
